-- ==== Sys2Proof/Word.lean ====
section
/-!
DEFINITION. The bit vectors the 102 Computer's store, orders and registers are made of
(spec/00_scope.md R1, R3; spec/30_encoding.md R65).
-/

namespace Sys2Proof

/-- A store word: 48 bits, bit 0 the least significant and bit 47 the sign bit (R1). -/
abbrev Word := BitVec 48

/-- Half a word, 24 bits; also the width of the Y operand (R1, R65). -/
abbrev Half := BitVec 24

/-- A quarter of a word, what the peripheral bus carries in one digit time (R1, R100). -/
abbrev Dollop := BitVec 12

/-- A character: 6 bits, eight to a word (R3). -/
abbrev Character := BitVec 6

/-- The X and Z fields of an order: 15 bits (R65). -/
abbrev Field15 := BitVec 15

/-- The seven F-bits of an order (R65). -/
abbrev Function7 := BitVec 7

/-- What an address register (W or a tester's) holds. ADDR_BITS is at most 24 (spec/00_scope.md,
open parameters); the bits above ADDR_BITS are zero. -/
abbrev Addr := BitVec 24

/-- The link J. J_BITS is at most 47 (R17); the bits above J_BITS are zero. -/
abbrev Link := BitVec 47

end Sys2Proof
end

