-- ==== Sys2Proof/Syntax.lean ====
section
/-!
DEFINITION. Orders as syntax: the operands an order carries, the order record (spec/30_encoding.md
R65), and one constructor of `Instr` for each row of spec/opcode_table.json.
-/

namespace Sys2Proof

/-- The operands of an order (R65): X, Y, and Z, which is present only in the 3-address form. -/
structure Operands where
  x : Field15
  y : Half
  z : Option Field15
  deriving DecidableEq, Repr, Inhabited

/-- A3: 1 if the order is 3-address (R65). -/
def Operands.a3 (o : Operands) : Bool := o.z.isSome

/-- An order record `(F, A3, X, Y, Z)`: what `Decode` delivers for the word at `pc` (R64, R65). -/
structure Order where
  f : Function7
  args : Operands
  deriving DecidableEq, Repr, Inhabited

/-- The orders, one constructor for each row of spec/opcode_table.json.
The rows with suffix E are obeyed while XC_ACTIVE, the bare numbers outside it, and `normal` is
every other order, with the mode it is obeyed in and its seven F-bits (R62, R63). -/
inductive Instr where
  | op87E (o : Operands)
  | op20E (o : Operands)
  | op21E (o : Operands)
  | op22E (o : Operands)
  | op23E (o : Operands)
  | op24E (o : Operands)
  | op25E (o : Operands)
  | op26E (o : Operands)
  | op27E (o : Operands)
  | op102E (o : Operands)
  | op103E (o : Operands)
  | op105E (o : Operands)
  | op106E (o : Operands)
  | op107E (o : Operands)
  | op125E (o : Operands)
  | op127E (o : Operands)
  | op140E (o : Operands)
  | op102 (o : Operands)
  | op103 (o : Operands)
  | op125 (o : Operands)
  | op126 (o : Operands)
  | op140 (o : Operands)
  | op141 (o : Operands)
  | op142 (o : Operands)
  | op154 (o : Operands)
  | op155 (o : Operands)
  | op40 (o : Operands)
  | op41 (o : Operands)
  | op42 (o : Operands)
  | op43 (o : Operands)
  | op44 (o : Operands)
  | op45 (o : Operands)
  | op95 (o : Operands)
  | op101 (o : Operands)
  | op156 (o : Operands)
  | normal (active : Bool) (f : Function7) (o : Operands)
  deriving DecidableEq, Repr, Inhabited

end Sys2Proof
end

