-- ==== Sys2Proof/Config.lean ====
section
/-!
DEFINITION. What an installation of the machine fixes, and the free values (spec/00_scope.md
section 4, spec/92_eei_decisions.md).

The spec's open parameters stand here in two forms (log 9). Those that are data are fields of
`Installation`, which a state carries and no step changes, so that a statement about every state
holds for every value of them. Those that are functions the spec says nothing about are opaque
constants: no proof can see a value of one. The opaque functions of the whole state stand in
Machine/Open.lean.
-/

namespace Sys2Proof

/-! ## Store addresses the hardware fixes (R49) -/

/-- The first of the five entry information words (R146). -/
abbrev entryX : Nat := 512
/-- The word that receives the F-bits (R147). -/
abbrev entryFunction : Nat := 513
/-- The word that receives Y (R149). -/
abbrev entryY : Nat := 514
/-- The word that receives X or Z (R150). -/
abbrev entryResult : Nat := 515
/-- The word that receives J and OVR (R151). -/
abbrev entryLink : Nat := 516
/-- The first order obeyed after entry to Extracode (R152). -/
abbrev extracodeStart : Nat := 517

/-! ## The installation -/

/-- The two kinds of region test: 125E is the strong test, 127E the weak one (R96). -/
inductive TestKind where
  | strong
  | weak
  deriving DecidableEq, Repr

/-- ENTRY_FILL: what the unnamed bits of words 512 to 516 become on entry (R155). -/
inductive EntryFill where
  | draw
  | zero
  deriving DecidableEq, Repr

/-- P21_OUT_BIT: which bit of Y is the "Y6" of 21E (R94). -/
inductive OutBit where
  | bit5
  | bit6
  deriving DecidableEq, Repr

/-- How an open function for which the spec offers a candidate is taken: as the candidate, or as
nothing at all (an opaque constant). -/
inductive Reading where
  | candidate
  | unknown
  deriving DecidableEq, Repr

/-- LinkValue (R17): the J that entry hands over is either what the J register holds, or unknown. -/
inductive LinkReading where
  | register
  | unknown
  deriving DecidableEq, Repr

/-- `Applies(kind, s)` of R96: whether a lockout whose strong/weak bit is s counts in a test. -/
structure Applies where
  strong0 : Bool
  strong1 : Bool
  weak0 : Bool
  weak1 : Bool
  deriving DecidableEq, Repr

/-- The candidate of R96: a strong test counts every lockout, a weak test those that are marked
strong; `strongValue` is STRONG_VALUE. -/
def Applies.candidate (strongValue : Bool) : Applies :=
  { strong0 := true, strong1 := true, weak0 := !strongValue, weak1 := strongValue }

/-- A range of addresses on which `ResDenies(kind, s, a)` of R96 holds. -/
structure ResDenial where
  kind : TestKind
  sw : Bool
  lower : Nat
  upper : Nat
  deriving DecidableEq, Repr

/-- The open parameters of spec/00_scope.md section 4 that are data. -/
structure Installation where
  /-- ADDR_BITS -/
  addrBits : Nat
  /-- STORE_SIZE -/
  storeSize : Nat
  /-- J_BITS -/
  jBits : Nat
  /-- FunctionCode (R66): the seven F-bits of the printed functions that are spelled otherwise than
  by the default of D1; none listed is the default (log 1). -/
  codes : List (Nat × Function7)
  /-- LinkValue (R17) -/
  link : LinkReading
  /-- Decode (R64): the order record of a word; a word not listed decodes to an opaque one. -/
  decode : List (Word × Order)
  /-- QuotientAppearsOutOfRange (R143) of an order; opaque for an order not listed. -/
  quotient : List (Order × Bool)
  /-- NeedsExtracodeHelp (R144) of an order; opaque for an order not listed. -/
  help : List (Order × Bool)
  /-- ModPart (R80) -/
  modPart : Reading
  /-- Applies (R96) -/
  applies : Applies
  /-- ResDenies (R96): the ranges on which it holds. -/
  resDenies : List ResDenial
  /-- HasCurrentAddress (R26): bit t-1 for lockout tester t. -/
  hasCurrent : BitVec 7
  /-- P21_OUT_BIT (R94) -/
  outBit : OutBit
  /-- ColRow2 (R109) -/
  colRow2 : Reading
  /-- TabTarget (R114), for pairs listed; opaque for a pair not listed. -/
  tabTarget : List ((Character × Nat) × Nat)
  /-- FILL (R114): the character written into skipped places; none leaves them unchanged. -/
  fill27 : Option Character
  /-- MAX27 (R114) -/
  max27 : Nat
  /-- NL_CODE (R114, R129) -/
  nlCode : Character
  /-- PT_CODE (R114) -/
  ptCode : Character
  /-- TAB_CODE (R114) -/
  tabCode : Character
  /-- WheelIndex (R116): place k of the list is the wheel place of character k; a character beyond
  the list has the candidate's place, its own value. -/
  wheel : List Nat
  /-- Which of the twelve hole positions of a card column are the 10 and 11 positions (R120, R122). -/
  tenEleven : BitVec 12
  /-- ENTRY_FILL (R155) -/
  entryFill : EntryFill
  deriving DecidableEq, Repr

/-! ## Free values -/

/-- The n-th value the environment draws (`draw(T)`, spec/00_scope.md section 5). Free (log 10). -/
opaque Config.freeWord : Nat → Word

/-- ModPart of a word where the installation does not take the candidate (R80). Free (log 21). -/
opaque Config.modPart : Word → Half

/-- ColRow2 where the installation does not take the candidate (R109). Free (log 38). -/
opaque Config.colRow2 : Word → Word → Word × Word

/-- CardConv1 before the constraints of R122 are put on it. Free (log 41). -/
opaque Config.cardConv1 : Word → Word → Word

/-- CardCheck2 (R124). Free (log 41). -/
opaque Config.cardCheck2 : Word → Word → Word → Word

/-- TabTarget (R114) for a pair the installation does not list. Free (log 39). -/
opaque Config.tabTarget : Character → Nat → Nat

end Sys2Proof
end

