-- ==== Sys2Proof/WellFormed.lean ====
section
/-!
DEFINITION. Which terms of `Instr` are orders (spec/30_encoding.md R61, R66, R71). The widths of the
operand fields are in their types; what is left to check is that `normal` stands only for orders that
no other row of the opcode table matches, which depends on how functions are spelled in the seven
F-bits (FunctionCode, R66; log 1).
-/

namespace Sys2Proof

/-- The printed numbers of the seventeen functions with special effects (R61). -/
def specialFunctions : List Nat :=
  [20, 21, 22, 23, 24, 25, 26, 27, 87, 102, 103, 105, 106, 107, 125, 127, 140]

/-- The printed numbers of the eighteen functions that can enter Extracode (R71). -/
def enteringFunctions : List Nat :=
  [40, 41, 42, 43, 44, 45, 95, 101, 102, 103, 125, 126, 140, 141, 142, 154, 155, 156]

/-- The 31 function numbers B50 prints (table of R66). -/
def printedFunctions : List Nat :=
  [20, 21, 22, 23, 24, 25, 26, 27, 40, 41, 42, 43, 44, 45, 87, 95, 101, 102, 103, 105, 106, 107,
   125, 126, 127, 140, 141, 142, 154, 155, 156]

/-- A FunctionCode that spells no two of the printed functions alike: seven F-bits name at most one
function, as decoding presupposes (R62; log 1). -/
abbrev CodesDistinct (code : Nat → Function7) : Prop := (printedFunctions.map code).Nodup

/-- The check, under a FunctionCode: `normal` may not carry a function that has a row of its own in
that mode. -/
def Instr.wf (code : Nat → Function7) : Instr → Bool
  | .normal true f _ => f ∉ specialFunctions.map code
  | .normal false f _ => f ∉ enteringFunctions.map code
  | .op87E _ | .op20E _ | .op21E _ | .op22E _ | .op23E _ | .op24E _ | .op25E _ | .op26E _ => true
  | .op27E _ | .op102E _ | .op103E _ | .op105E _ | .op106E _ | .op107E _ | .op125E _ => true
  | .op127E _ | .op140E _ | .op102 _ | .op103 _ | .op125 _ | .op126 _ | .op140 _ => true
  | .op141 _ | .op142 _ | .op154 _ | .op155 _ | .op40 _ | .op41 _ | .op42 _ | .op43 _ => true
  | .op44 _ | .op45 _ | .op95 _ | .op101 _ | .op156 _ => true

/-- An order of the machine, under a FunctionCode. -/
abbrev WellFormed (code : Nat → Function7) (i : Instr) : Prop := i.wf code = true

end Sys2Proof
end

