-- ==== Sys2Proof/Decode.lean ====
section
/-!
DEFINITION. Function numbers (spec/30_encoding.md R66: FunctionCode, its default and what an
installation makes of it), the decode of an order record by mode and
function (R62, spec/opcode_table.json), and the 64-bit record word the package's decoder and encoder
use (log 3: the spec has no layout of an order word, R64).
-/

namespace Sys2Proof

/-! ## Function numbers -/

/-- The default of FunctionCode: the seven F-bits of a function printed h d are 8h + d (R66, D1;
log 1). -/
def functionCode (printed : Nat) : Function7 :=
  BitVec.ofNat 7 (8 * (printed / 10) + printed % 10)

/-- The default's printed number of seven F-bits: the leading part in decimal, then the octal digit
(R66). -/
def printedFunction (f : Function7) : Nat := 10 * (f.toNat / 8) + f.toNat % 8

/-- The listed spelling of a printed function, if there is one. -/
def listedCode (printed : Nat) : List (Nat × Function7) → Option Function7
  | [] => none
  | (p, f) :: rest => if p = printed then some f else listedCode printed rest

/-- FunctionCode of an installation, an open parameter (R66, D1): the listed seven F-bits, else the
default's. -/
def Installation.code (c : Installation) (printed : Nat) : Function7 :=
  match listedCode printed c.codes with
  | some f => f
  | none => functionCode printed

/-- The laws of the parameters (spec/00_scope.md section 4; R120: the 10 and 11 positions are two of
the three most significant bits of a column; FunctionCode: log 1). -/
def Installation.wf (c : Installation) : Bool :=
  decide (15 ≤ c.addrBits) && decide (c.addrBits ≤ 24) && decide (517 < c.storeSize) &&
  decide (c.storeSize ≤ 2 ^ c.addrBits) && decide (c.jBits ≤ 47) &&
  decide (c.tenEleven ∈ [0xC00#12, 0xA00#12, 0x600#12]) && decide (CodesDistinct c.code)

/-! ## The opcode table over the decode key K = 128*XC_ACTIVE + F7

Every definition from here on takes the FunctionCode as an argument; the values of
spec/opcode_table.json are those of the default. -/

/-- A row of spec/opcode_table.json with mask 0xFF: the mode, the printed function, and the order it
stands for. -/
structure OpcodeRow where
  active : Bool
  printed : Nat
  build : Operands → Instr

/-- The rows of the seventeen special orders (R61). -/
def specialRows : List OpcodeRow :=
  [⟨true, 87, .op87E⟩, ⟨true, 20, .op20E⟩, ⟨true, 21, .op21E⟩, ⟨true, 22, .op22E⟩,
   ⟨true, 23, .op23E⟩, ⟨true, 24, .op24E⟩, ⟨true, 25, .op25E⟩, ⟨true, 26, .op26E⟩,
   ⟨true, 27, .op27E⟩, ⟨true, 102, .op102E⟩, ⟨true, 103, .op103E⟩, ⟨true, 105, .op105E⟩,
   ⟨true, 106, .op106E⟩, ⟨true, 107, .op107E⟩, ⟨true, 125, .op125E⟩, ⟨true, 127, .op127E⟩,
   ⟨true, 140, .op140E⟩]

/-- The rows of the eighteen entering functions (R71). -/
def enteringRows : List OpcodeRow :=
  [⟨false, 102, .op102⟩, ⟨false, 103, .op103⟩, ⟨false, 125, .op125⟩, ⟨false, 126, .op126⟩,
   ⟨false, 140, .op140⟩, ⟨false, 141, .op141⟩, ⟨false, 142, .op142⟩, ⟨false, 154, .op154⟩,
   ⟨false, 155, .op155⟩, ⟨false, 40, .op40⟩, ⟨false, 41, .op41⟩, ⟨false, 42, .op42⟩,
   ⟨false, 43, .op43⟩, ⟨false, 44, .op44⟩, ⟨false, 45, .op45⟩, ⟨false, 95, .op95⟩,
   ⟨false, 101, .op101⟩, ⟨false, 156, .op156⟩]

/-- All rows but the catch-all. -/
def opcodeRows : List OpcodeRow := specialRows ++ enteringRows

/-- The row that matches a mode and seven F-bits, if one does. -/
def matchingRow (code : Nat → Function7) (active : Bool) (f : Function7) :
    List OpcodeRow → Option OpcodeRow
  | [] => none
  | r :: rs =>
    if r.active = active ∧ code r.printed = f then some r else matchingRow code active f rs

/-- Decode of one order record in a mode (R60, R62): the row that matches it, else the catch-all
NORMAL; total, no record is refused. -/
def decodeOrder (code : Nat → Function7) (active : Bool) (o : Order) : Instr :=
  match matchingRow code active o.f opcodeRows with
  | some r => r.build o.args
  | none => .normal active o.f o.args

/-! ## The record word

64 bits: K in bits 7:0, bit 8 set in the 2-address form, X in bits 23:9, Y in bits 47:24, Z in bits
62:48 (zero in the 2-address form), bit 63 zero. Stored as eight bytes, the least significant first. -/

/-- Why bytes are no record word. -/
inductive DecodeError where
  | wrongLength
  | reservedBit
  | resultInTwoAddressForm
  deriving DecidableEq, Repr

/-- The operands of a record word. -/
def recordOperands (w : BitVec 64) : Operands :=
  { x := w.extractLsb' 9 15, y := w.extractLsb' 24 24,
    z := if w.getLsbD 8 then none else some (w.extractLsb' 48 15) }

/-- The order of a record word. -/
def decodeRecord (code : Nat → Function7) (w : BitVec 64) : Except DecodeError Instr :=
  if w.getLsbD 63 then .error .reservedBit
  else if w.getLsbD 8 && w.extractLsb' 48 15 != 0#15 then .error .resultInTwoAddressForm
  else .ok (decodeOrder code (w.getLsbD 7) ⟨w.extractLsb' 0 7, recordOperands w⟩)

/-- The number whose little-endian bytes are given. -/
def natOfBytes : List (BitVec 8) → Nat
  | [] => 0
  | b :: bs => b.toNat + 256 * natOfBytes bs

/-- The little-endian bytes of a number, n of them. -/
def bytesOfNat : Nat → Nat → List (BitVec 8)
  | 0, _ => []
  | n + 1, v => BitVec.ofNat 8 v :: bytesOfNat n (v / 256)

/-- The decoder: total on any bytes, and what is no record word is rejected by name. -/
def decodeBytes (code : Nat → Function7) (bs : List (BitVec 8)) : Except DecodeError Instr :=
  if bs.length = 8 then decodeRecord code (BitVec.ofNat 64 (natOfBytes bs))
  else .error .wrongLength

/-! ## The encoder -/

/-- The seven F-bits of an order. -/
def Instr.function (code : Nat → Function7) : Instr → Function7
  | .op87E _ => code 87
  | .op20E _ => code 20
  | .op21E _ => code 21
  | .op22E _ => code 22
  | .op23E _ => code 23
  | .op24E _ => code 24
  | .op25E _ => code 25
  | .op26E _ => code 26
  | .op27E _ => code 27
  | .op102E _ => code 102
  | .op103E _ => code 103
  | .op105E _ => code 105
  | .op106E _ => code 106
  | .op107E _ => code 107
  | .op125E _ => code 125
  | .op127E _ => code 127
  | .op140E _ => code 140
  | .op102 _ => code 102
  | .op103 _ => code 103
  | .op125 _ => code 125
  | .op126 _ => code 126
  | .op140 _ => code 140
  | .op141 _ => code 141
  | .op142 _ => code 142
  | .op154 _ => code 154
  | .op155 _ => code 155
  | .op40 _ => code 40
  | .op41 _ => code 41
  | .op42 _ => code 42
  | .op43 _ => code 43
  | .op44 _ => code 44
  | .op45 _ => code 45
  | .op95 _ => code 95
  | .op101 _ => code 101
  | .op156 _ => code 156
  | .normal _ f _ => f

/-- The mode an order is obeyed in: K[7]. -/
def Instr.active : Instr → Bool
  | .op87E _ | .op20E _ | .op21E _ | .op22E _ | .op23E _ | .op24E _ | .op25E _
  | .op26E _ | .op27E _ | .op102E _ | .op103E _ | .op105E _ | .op106E _ | .op107E _
  | .op125E _ | .op127E _ | .op140E _ => true
  | .op102 _ | .op103 _ | .op125 _ | .op126 _ | .op140 _ | .op141 _ | .op142 _
  | .op154 _ | .op155 _ | .op40 _ | .op41 _ | .op42 _ | .op43 _ | .op44 _ | .op45 _
  | .op95 _ | .op101 _ | .op156 _ => false
  | .normal active _ _ => active

/-- The operands of an order. -/
def Instr.args : Instr → Operands
  | .op87E o | .op20E o | .op21E o | .op22E o | .op23E o | .op24E o | .op25E o | .op26E o => o
  | .op27E o | .op102E o | .op103E o | .op105E o | .op106E o | .op107E o | .op125E o => o
  | .op127E o | .op140E o | .op102 o | .op103 o | .op125 o | .op126 o | .op140 o => o
  | .op141 o | .op142 o | .op154 o | .op155 o | .op40 o | .op41 o | .op42 o | .op43 o => o
  | .op44 o | .op45 o | .op95 o | .op101 o | .op156 o | .normal _ _ o => o

/-- The order record of an order: its F-bits without the mode, and its operands. -/
def Instr.order (code : Nat → Function7) (i : Instr) : Order := ⟨i.function code, i.args⟩

/-- The record word of an order. -/
def encodeRecord (code : Nat → Function7) (i : Instr) : BitVec 64 :=
  0#1 ++ (i.args.z.getD 0#15 ++ (i.args.y ++ (i.args.x ++
    (BitVec.ofBool (!i.args.a3) ++ (BitVec.ofBool i.active ++ i.function code)))))

/-- The encoder: the eight bytes of an order. -/
def encode (code : Nat → Function7) (i : Instr) : List (BitVec 8) :=
  bytesOfNat 8 (encodeRecord code i).toNat

/-- What the decoder reads from the instruction whose bits are w, nbits of them given and the rest
zero: the record word's eight bytes are laid out and decoded, under the default FunctionCode, which
spec/opcode_table.json's match values follow. -/
def decodeTableWord (nbits w : Nat) : Option Instr :=
  match decodeBytes functionCode (bytesOfNat 8 (w % 2 ^ nbits)) with
  | .ok i => some i
  | .error _ => none

end Sys2Proof
end

