-- ==== Sys2Proof/Machine/Bits.lean ====
section
/-!
DEFINITION. Bit fields, characters, halves and addresses of words (spec/00_scope.md R1 to R3, R7 and
the table of pseudocode primitives).
-/

namespace Sys2Proof.Machine

/-- w with bits lo+len-1 down to lo replaced by v (`w[hi:lo] <- v`, R1). -/
def putField {len : Nat} (w : Word) (lo : Nat) (v : BitVec len) : Word :=
  (w &&& ~~~((BitVec.allOnes len).setWidth 48 <<< lo)) ||| (v.setWidth 48 <<< lo)

/-- w with bit i replaced (`w[i] <- b`, R1). -/
def putBit (w : Word) (i : Nat) (b : Bool) : Word := putField w i (BitVec.ofBool b)

/-- `char(w, c)`: character c of a word, character 0 the most significant (R3). -/
def charOf (w : Word) (c : Nat) : Character := w.extractLsb' (42 - 6 * c) 6

/-- `setchar(w, c, v)` (R3). -/
def setChar (w : Word) (c : Nat) (v : Character) : Word := putField w (42 - 6 * c) v

/-- The word with the given eight characters, character 0 first (`‖`, R3). -/
def wordOfChars (f : Nat → Character) : Word :=
  f 0 ++ f 1 ++ f 2 ++ f 3 ++ f 4 ++ f 5 ++ f 6 ++ f 7

/-- The word whose n-th bit from the m.s. end (n = 0 for bit 47) is f n. -/
def wordOfBits (f : Nat → Bool) : Word :=
  BitVec.ofNat 48 ((List.range 48).foldl (fun acc n => 2 * acc + (f n).toNat) 0)

/-- The most significant half of a word, bits 47:24. -/
def highHalf (w : Word) : Half := w.extractLsb' 24 24

/-- The least significant half of a word, bits 23:0. -/
def lowHalf (w : Word) : Half := w.extractLsb' 0 24

/-- `rot24(w)`: the cyclic shift by 24 places, the exchange of the halves (R123). -/
def rot24 (w : Word) : Word := lowHalf w ++ highHalf w

/-- A natural number as an address, reduced mod 2^ADDR_BITS (R7). -/
def toAddr (c : Installation) (n : Nat) : Addr := BitVec.ofNat 24 (n % 2 ^ c.addrBits)

/-- `addr(w)`: the address at the l.s. end of a word, `w[ADDR_BITS-1:0]`. -/
def addrOf (c : Installation) (w : Word) : Addr := toAddr c w.toNat

/-- A link value, J_BITS bits (R17). -/
def toLink (c : Installation) (v : Link) : Link := BitVec.ofNat 47 (v.toNat % 2 ^ c.jBits)

end Sys2Proof.Machine
end

