-- ==== Sys2Proof/Machine/State.lean ====
section
/-!
DEFINITION. The machine's state as plain data (spec/10_state.md), the reasons a step can stop
(spec/60_exceptions.md section 7), and the state after reset (spec/70_reset_and_hazards.md R170).
-/

namespace Sys2Proof.Machine

/-- The store: (word number, word) pairs in one canonical form (R11, log 8): word numbers strictly
rising, no word equal to `coldWord`. -/
abbrev Memory := List (Nat × Word)

/-- What a store word nothing has written reads as (R170 gives no value; DESIGN CHOICE, unsafe,
log 7). -/
abbrev coldWord : Word := 0#48

/-- Why the machine stops with a fault. -/
inductive Fault where
  /-- Raised by every access of the store at or beyond STORE_SIZE, with the address the access began
  at (R44). Safe: the spec's own conservative treatment, and nothing goes on from it (log 12). -/
  | storeBound (a : Nat)
  deriving DecidableEq, Repr

/-- Why an order has no meaning. All are safe: the machine stops where the hardware may go on. -/
inductive Refusal where
  /-- Raised by a refused arm of `exec` only: an order with no meaning in this model yet. -/
  | notModelled (mnemonic : String)
  /-- Raised by NORMAL, and by a conditional entering order whose condition is false, with its seven
  F-bits: its normal effect is in the Orion manual only (R63). -/
  | normalOrder (f : Function7)
  /-- Raised while XC_ACTIVE by an order that would enter Extracode (R156): by NORMAL, which such an
  order decodes to in that mode, and by the entering orders themselves. -/
  | nestedEntry
  /-- Raised by 87E when no entry has been recorded (R80). -/
  | noEntryRecorded
  /-- Raised by 23E with X[1] and X[4] both 1 (R81). -/
  | setAndReset
  /-- Raised by 20E and 21E for tester numbers 8 to 15 (R92). -/
  | testerNumber (t : Nat)
  /-- Raised by 20E and 21E for the current address of a tester that has none (R92). -/
  | noCurrentAddress (t : Nat)
  /-- Raised by 20E and 21E for selector 1 1 on the reservation tester (R92). -/
  | resStrongWeakSelector
  /-- Raised by the 2-address form of an order that needs Z, with the printed function (R68). -/
  | twoAddressForm (printed : Nat)
  /-- Raised by 125E and 127E when the top halves of x and y differ (R97). -/
  | regionTopHalves
  /-- Raised by 125E and 127E when x lies above y (R97). -/
  | emptyRegion
  /-- Raised by 105E and 106E when the count has bit 47 set (R128, R129). -/
  | negativeCount
  /-- Raised by 27E when MAX27 characters hold no NL and no PT (R114). -/
  | unterminated27E
  deriving DecidableEq, Repr

/-- The four indicator flip-flops of 23E (R18). -/
structure Indicators where
  /-- PROGRAM_FAIL -/
  programFail : Bool
  /-- PERIPHERAL_INCIDENT -/
  peripheralIncident : Bool
  /-- PERIPHERAL_LOCKOUT -/
  peripheralLockout : Bool
  /-- REQUIREMENT_SET -/
  requirementSet : Bool
  deriving DecidableEq, Repr

/-- The mode and option flip-flops (R19 to R22), written by nothing in scope. -/
structure Options where
  /-- MONITORING_MODE (R19) -/
  monitoringMode : Bool
  /-- ENGINEERS_MODE (R19) -/
  engineersMode : Bool
  /-- FP_UNROUNDED (R20) -/
  fpUnrounded : Bool
  /-- MON_ON_OVR (R21) -/
  monOnOvr : Bool
  /-- MON_ON_FPOVR (R22) -/
  monOnFpOvr : Bool
  deriving DecidableEq, Repr

/-- The reservation tester, tester 0 (R25). -/
structure Reservation where
  /-- RES_LOWER -/
  lower : Addr
  /-- RES_UPPER -/
  upper : Addr
  /-- RES_SW, the strong/weak flip-flop -/
  sw : Bool
  deriving DecidableEq, Repr

/-- A lockout tester (R26, R27). -/
structure Lockout where
  /-- LK_LOWER -/
  lower : Addr
  /-- LK_UPPER -/
  upper : Addr
  /-- LK_CURRENT, which only the testers of HasCurrentAddress have -/
  current : Addr
  /-- LK_SW, the strong/weak flip-flop -/
  sw : Bool
  /-- LK_ACTIVE: the tester is in action -/
  active : Bool
  deriving DecidableEq, Repr

/-- An event of the peripheral bus (R28, R100 to R102). -/
inductive BusEvent where
  | generalRequest (channels : Dollop)
  | busIn (first second : Dollop)
  | controlDollop (channels : Dollop)
  deriving DecidableEq, Repr

/-- What a device answers on the Bus In: one dollop, which the bus carries twice, or two (R101). -/
inductive BusReply where
  | one (d : Dollop)
  | two (first second : Dollop)
  deriving DecidableEq, Repr

/-- What the outside does between two orders (R14, R19 to R22, R50, R186; log 44). -/
inductive Input where
  /-- the operator presses or releases the handkey -/
  | handkey (down : Bool)
  /-- the mode and option flip-flops change -/
  | options (o : Options)
  /-- the peripheral control of lockout tester t+1 writes a store word -/
  | transfer (t : Fin 7) (a : Addr) (v : Word)
  /-- the peripheral control of lockout tester t+1 moves its current address -/
  | current (t : Fin 7) (a : Addr)
  deriving DecidableEq, Repr

/-- What an undescribed effect may change (R158; log 23): where the machine goes, J, OVR, and words
of the store. -/
structure OpenEffect where
  pc : Addr
  j : Link
  ovr : Bool
  writes : List (Nat × Word)
  deriving DecidableEq, Repr, Inhabited

/-- What 87's normal effects do, and whether its jump was successful (R80). -/
structure Normal87 where
  jumped : Bool
  effect : OpenEffect
  deriving DecidableEq, Repr, Inhabited

/-- The outcome of a modelled run (R158): how Extracode was left. -/
inductive Leaving where
  /-- LeftBy87, by an 87 whose normal effects are r, which the state does not show yet -/
  | leftBy87 (r : Normal87)
  /-- AbandonedBy23E -/
  | abandonedBy23E
  deriving DecidableEq, Repr

/-- The state of the machine. The last seven fields are the model's bookkeeping, not hardware. -/
structure State where
  /-- M, the store (R11) -/
  mem : Memory
  /-- the address of the word that holds the order being obeyed (R12, log 11) -/
  pc : Nat
  /-- XC_FF, the Extracode flip-flop (R13) -/
  xcFF : Bool
  /-- XC_KEY, the Extracode handkey (R14) -/
  xcKey : Bool
  /-- OVR, the overflow flip-flop (R15) -/
  ovr : Bool
  /-- W, the abandonment address (R16) -/
  w : Addr
  /-- J, the link (R17) -/
  j : Link
  /-- the four indicators (R18) -/
  ind : Indicators
  /-- the mode and option flip-flops (R19 to R22) -/
  opt : Options
  /-- ENTRY_F, the function of the most recent entry, or no value (R23) -/
  entryF : Option Function7
  /-- tester 0 (R25) -/
  res : Reservation
  /-- testers 1 to 7: tester t at place t-1 (R24, R26) -/
  lockouts : Vector Lockout 7
  /-- BUS, the history of bus events, oldest first (R28) -/
  bus : List BusEvent
  /-- how Extracode has just been left, if it has (R158, log 23) -/
  leaving : Option Leaving
  /-- FAULTED (R30, log 13) -/
  faulted : Option Fault
  /-- REFUSED (R30, log 13) -/
  refusedMark : Option Refusal
  /-- what the Bus In will carry, first first (R101, log 35) -/
  replies : List BusReply
  /-- what the outside has done since the last step, oldest first (log 44) -/
  inputs : List Input
  /-- how many free values have been drawn (log 10) -/
  draws : Nat
  /-- the installation (log 9) -/
  inst : Installation
  deriving DecidableEq, Repr

/-- What an instruction answers. -/
abbrev Result := Host.Outcome State Fault Refusal

/-- The installation State.reset has (log 6, DESIGN CHOICE). -/
def resetInstallation : Installation :=
  { addrBits := 24, storeSize := 32768, jBits := 24, codes := [], link := .unknown,
    decode := [], quotient := [], help := [], modPart := .unknown,
    applies := .candidate true, resDenies := [],
    hasCurrent := 0#7, outBit := .bit6, colRow2 := .unknown, tabTarget := [], fill27 := none,
    max27 := 262144, nlCode := 0#6, ptCode := 1#6, tabCode := 2#6, wheel := [],
    tenEleven := 0xC00#12, entryFill := .draw }

/-- The machine after reset. R170 gives no value for any of it but ENTRY_F and BUS; the rest is
zero (log 5, DESIGN CHOICE). -/
def State.reset : State :=
  { mem := [], pc := 0, xcFF := false, xcKey := false, ovr := false, w := 0#24, j := 0#47,
    ind := { programFail := false, peripheralIncident := false, peripheralLockout := false,
             requirementSet := false },
    opt := { monitoringMode := false, engineersMode := false, fpUnrounded := false,
             monOnOvr := false, monOnFpOvr := false },
    entryF := none, res := { lower := 0#24, upper := 0#24, sw := false },
    lockouts := Vector.replicate 7
      { lower := 0#24, upper := 0#24, current := 0#24, sw := false, active := false },
    bus := [], leaving := none, faulted := none, refusedMark := none, replies := [], inputs := [],
    draws := 0, inst := resetInstallation }

end Sys2Proof.Machine
end

