-- ==== Sys2Proof/Machine/Memory.lean ====
section
/-!
DEFINITION. The store as a list in canonical form (spec/10_state.md R11; log 7, log 8): reading and
writing one word, whatever the bounds.
-/

namespace Sys2Proof.Machine

/-- The word at an address; an unlisted word reads as `coldWord`. -/
def Memory.read (m : Memory) (a : Nat) : Word :=
  match m with
  | [] => coldWord
  | (b, v) :: rest => if b = a then v else Memory.read rest a

/-- m with the word at an address replaced, in canonical form again: writing `coldWord` removes the
entry. -/
def Memory.write (m : Memory) (a : Nat) (v : Word) : Memory :=
  match m with
  | [] => if v = coldWord then [] else [(a, v)]
  | (b, u) :: rest =>
    if a < b then
      if v = coldWord then (b, u) :: rest else (a, v) :: (b, u) :: rest
    else if a = b then
      if v = coldWord then rest else (a, v) :: rest
    else (b, u) :: Memory.write rest a v

/-- Every word number is above lo, they rise strictly, and no word is `coldWord`. -/
def Memory.wfFrom (lo : Nat) (m : Memory) : Bool :=
  match m with
  | [] => true
  | (b, v) :: rest => decide (lo ≤ b) && decide (v ≠ coldWord) && Memory.wfFrom (b + 1) rest

/-- The canonical form. -/
def Memory.wf (m : Memory) : Bool := Memory.wfFrom 0 m

/-- Every listed word lies in a store of n words. -/
def Memory.within (n : Nat) (m : Memory) : Bool := m.all fun p => decide (p.1 < n)

end Sys2Proof.Machine
end

