-- ==== Sys2Proof/Machine/Open.lean ====
section
/-!
DEFINITION. The open functions of the whole state (spec/00_scope.md section 4): opaque, so nothing
can be proved of a value of one. Machine/Ops.lean, Machine/Leaving.lean, Machine/Control.lean and
Machine/Fetch.lean call them.
-/

namespace Sys2Proof

open Machine

/-- Decode (R64) of a word the installation does not list. Free (log 2). -/
opaque Config.decode : Word → State → Order

/-- LinkValue (R17) where the installation does not take the J register. Free (log 19). -/
opaque Config.linkValue : State → Link

/-- QuotientAppearsOutOfRange (R143) for an order the installation does not list. Free (log 26). -/
opaque Config.quotientAppearsOutOfRange : Order → State → Bool

/-- NeedsExtracodeHelp (R144) for an order the installation does not list. Free (log 26). -/
opaque Config.needsExtracodeHelp : Order → State → Bool

/-- Normal87 (R80), of the state in which 87 is met. Free (log 23). -/
opaque Config.normal87 : Operands → State → Normal87

/-- AbandonmentTest (R80). Free (log 23). -/
opaque Config.abandonmentTest : State → OpenEffect

/-- Abandon (R82). Free (log 23). -/
opaque Config.abandon : State → OpenEffect

end Sys2Proof
end

