-- ==== Sys2Proof/Machine/Ops.lean ====
section
/-!
DEFINITION. The shared operations of the meanings: access to the store with its bound (spec/
20_memory.md R44), sequencing (R12), free values, bus events (R28), and entry to Extracode
(spec/60_exceptions.md R140 to R156), which is the machine's one exception; the return from it is in
Machine/Leaving.lean. An operation that can stop takes the rest of the order as a continuation.
-/

namespace Sys2Proof.Machine

/-! ## The store -/

/-- `MemRead(a, 1)` (R44). -/
def readWord (s : State) (a : Nat) (k : Word → Result) : Result :=
  if a < s.inst.storeSize then k (s.mem.read a) else .fault (.storeBound a)

/-- `MemRead(a, n)`: n consecutive words, or the fault if any of them is outside the store (R44). -/
def readWords (s : State) (a n : Nat) (k : List Word → Result) : Result :=
  if a + n ≤ s.inst.storeSize then k ((List.range n).map fun i => s.mem.read (a + i))
  else .fault (.storeBound a)

/-- The state with one word of the store replaced, whatever its bound. -/
def State.putWord (s : State) (a : Nat) (v : Word) : State := { s with mem := s.mem.write a v }

/-- `MemWrite(a, 1, v)` (R44). -/
def writeWord (s : State) (a : Nat) (v : Word) (k : State → Result) : Result :=
  if a < s.inst.storeSize then k (s.putWord a v) else .fault (.storeBound a)

/-! ## Sequencing and modes -/

/-- `pc <- pc + 1`, with no wrap-around (R12). -/
def State.advance (s : State) : State := { s with pc := s.pc + 1 }

/-- The end of an order that does not transfer control (R12). -/
def nextOrder (s : State) : Result := .next s.advance

/-- XC_ACTIVE (R60). -/
def State.xcActive (s : State) : Bool := s.xcFF || s.xcKey

/-- MON_ENG (R19). -/
def State.monEng (s : State) : Bool := s.opt.monitoringMode || s.opt.engineersMode

/-! ## Free values and the bus -/

/-- The next value the environment draws (log 10). -/
def State.drawn (s : State) : Word := Config.freeWord s.draws

/-- The state after n values have been drawn. -/
def State.skipDraws (s : State) (n : Nat) : State := { s with draws := s.draws + n }

/-- `emit Ev` (R28). -/
def State.emit (s : State) (e : BusEvent) : State := { s with bus := s.bus ++ [e] }

/-! ## The testers (R24) -/

/-- Lockout tester t+1. -/
def State.lockout (s : State) (t : Fin 7) : Lockout := s.lockouts[t]

/-- The state with lockout tester t+1 replaced. -/
def State.setLockout (s : State) (t : Fin 7) (l : Lockout) : State :=
  { s with lockouts := s.lockouts.set t l }

/-! ## Entry to Extracode: the causes (R140) -/

/-- The labels EC1 to EC7 of R140. Function 140 belongs to EC3 and EC4, the same cause seen in two
pairs (R160); it is labelled EC3. -/
inductive Cause where
  | ec1 | ec2 | ec3 | ec4 | ec5 | ec6 | ec7
  deriving DecidableEq, Repr

/-- A listed answer of an open predicate of an order, if there is one. -/
def listedAnswer (o : Order) : List (Order × Bool) → Option Bool
  | [] => none
  | (p, b) :: rest => if p = o then some b else listedAnswer o rest

/-- QuotientAppearsOutOfRange (R143; log 26). -/
def quotientAppearsOutOfRange (o : Order) (s : State) : Bool :=
  match listedAnswer o s.inst.quotient with
  | some b => b
  | none => Config.quotientAppearsOutOfRange o s

/-- NeedsExtracodeHelp (R144; log 26). -/
def needsExtracodeHelp (o : Order) (s : State) : Bool :=
  match listedAnswer o s.inst.help with
  | some b => b
  | none => Config.needsExtracodeHelp o s

/-- The seven F-bits of functions given by their printed numbers (R66). -/
def functionsOf (c : Installation) (printed : List Nat) : List Function7 := printed.map c.code

/-- `EntryCause(o, state)`: the label whose function list contains F and whose condition holds, or
none (R140 to R144, R153). -/
def entryCause (o : Order) (s : State) : Option Cause :=
  if o.f ∈ functionsOf s.inst [102, 103] then some .ec1
  else if o.f ∈ functionsOf s.inst [125, 126] then some .ec2
  else if o.f ∈ functionsOf s.inst [140, 141, 142] then some .ec3
  else if o.f ∈ functionsOf s.inst [154, 155] then some .ec4
  else if o.f ∈ functionsOf s.inst [40, 41, 42, 43, 44, 45] then
    if quotientAppearsOutOfRange o s then some .ec5 else none
  else if o.f ∈ functionsOf s.inst [101, 95] then
    if needsExtracodeHelp o s then some .ec6 else none
  else if o.f = s.inst.code 156 then
    if s.monEng then some .ec7 else none
  else none

/-! ## Entry to Extracode: the sequence (R145) -/

/-- `SecondOfPair(F)`: decided by the function alone (R142; log 27). -/
def secondOfPair (c : Installation) (f : Function7) : Bool := f ∈ functionsOf c [142, 154, 155]

/-- LinkValue(state), the J that entry hands over (R17; log 19). -/
def linkValue (s : State) : Link :=
  match s.inst.link with
  | .register => toLink s.inst s.j
  | .unknown => toLink s.inst (Config.linkValue s)

/-- PreEntryEffect: what an entering order has done before entry. The identity: entry is precise
(R154; log 18). -/
def preEntryEffect (_ : Order) (s : State) : State := s

/-- The unnamed bits of the n-th entry word (R155; log 17). -/
def entryFillWord (s : State) (n : Nat) : Word :=
  match s.inst.entryFill with
  | .draw => Config.freeWord (s.draws + n)
  | .zero => 0#48

/-- How many values an entry draws. -/
def entryDraws (s : State) : Nat :=
  match s.inst.entryFill with
  | .draw => 5
  | .zero => 0

/-- Word 512: X, and bit 47 if in monitoring or engineers mode (R146). -/
def entryWordX (o : Order) (s : State) : Word :=
  putBit (putField (entryFillWord s 0) 0 o.args.x) 47 s.monEng

/-- Word 513: the F-bits scattered, and the 3-address bit (R147; log 16). -/
def entryWordFunction (o : Order) (s : State) : Word :=
  putBit (putBit (putField (putField (entryFillWord s 1) 46 (o.f.extractLsb' 0 2)) 0
    (o.f.extractLsb' 2 4)) 28 (o.f.getLsbD 6)) 23 o.args.a3

/-- Word 514: Y, bit 47 if floating point is unrounded, bit 46 if monitoring on overflow (R149). -/
def entryWordY (o : Order) (s : State) : Word :=
  putBit (putBit (putField (entryFillWord s 2) 0 o.args.y) 47 s.opt.fpUnrounded) 46
    s.opt.monOnOvr

/-- DEST: Z in the 3-address form, else X (R5). -/
def destOf (o : Operands) : Field15 := o.z.getD o.x

/-- Word 515: X or Z, bit 46 if monitoring on floating point overflow, bit 47 for the second of a
pair (R150). -/
def entryWordResult (o : Order) (s : State) : Word :=
  putBit (putBit (putField (entryFillWord s 3) 0 (destOf o.args)) 46 s.opt.monOnFpOvr) 47
    (secondOfPair s.inst o.f)

/-- Word 516: J, and bit 47 if OVR is set (R151). -/
def entryWordLink (s : State) : Word :=
  putBit (putField (entryFillWord s 4) 0 ((linkValue s).setWidth s.inst.jBits)) 47 s.ovr

/-- What entry does beside the store: ENTRY_F is the entering function (R148), the flip-flop is set
and the next order is in word 517 (R145, R152). -/
def State.enterMode (s : State) (f : Function7) : State :=
  { s with pc := extracodeStart, xcFF := true, entryF := some f }

/-- Entry to Extracode (R145): one indivisible step; all five words are computed from the state
before it. -/
def enterExtracode (o : Order) (s0 : State) : Result :=
  let s := preEntryEffect o s0
  writeWord s entryX (entryWordX o s) fun s1 =>
  writeWord s1 entryFunction (entryWordFunction o s) fun s2 =>
  writeWord s2 entryY (entryWordY o s) fun s3 =>
  writeWord s3 entryResult (entryWordResult o s) fun s4 =>
  writeWord s4 entryLink (entryWordLink s) fun s5 =>
  .next ((s5.enterMode o.f).skipDraws (entryDraws s))

/-- A function that can enter, by its printed number: if its cause holds, entry, or the refusal of a
nested one while XC_ACTIVE; else its normal effect, which the spec refuses (R62, R63, R71, R156). -/
def obeyEntering (printed : Nat) (o : Operands) (s : State) : Result :=
  let f := s.inst.code printed
  match entryCause ⟨f, o⟩ s with
  | some _ => if s.xcActive then .refused .nestedEntry else enterExtracode ⟨f, o⟩ s
  | none => .refused (.normalOrder f)

end Sys2Proof.Machine
end

