-- ==== Sys2Proof/Machine/Flags.lean ====
section
/-!
DEFINITION. Every flag computation of the special orders: the indicators of 23E
(spec/40_control_87_23E_107E.md R81), and OVR as 102E and 23E set it (R121, R82).
-/

namespace Sys2Proof.Machine

/-- The action bits X[4:0] of 23E on the indicators: X[0] to X[3] set one each, X[4] resets
"Peripheral Incident"; a zero bit changes nothing (R81). -/
def setIndicators (x : Field15) (d : Indicators) : Indicators :=
  { programFail := d.programFail || x.getLsbD 0,
    peripheralIncident := (d.peripheralIncident || x.getLsbD 1) && !x.getLsbD 4,
    peripheralLockout := d.peripheralLockout || x.getLsbD 2,
    requirementSet := d.requirementSet || x.getLsbD 3 }

/-- The state after 23E's indicator actions. -/
def State.actIndicators (s : State) (x : Field15) : State :=
  { s with ind := setIndicators x s.ind }

/-- OVR as 102E leaves it: set if ov, never cleared (R121). -/
def State.raiseOvr (s : State) (ov : Bool) : State := { s with ovr := s.ovr || ov }

/-- OVR as a leaving 23E leaves it: the sign bit of y, set or cleared (R82). -/
def State.setOvr (s : State) (b : Bool) : State := { s with ovr := b }

end Sys2Proof.Machine
end

