-- ==== Sys2Proof/Machine/Operands.lean ====
section
/-!
DEFINITION. Operand forms: the 3-address-only orders (spec/30_encoding.md R68), character addresses
and fields (spec/20_memory.md R42, R43), and the tester register a literal Y selects
(spec/41_lockout_20E_21E_125E_127E.md R90, R92). DEST (R5) is `destOf` in Machine/Ops.lean.
-/

namespace Sys2Proof.Machine

/-- The Z of an order that needs it; the 2-address form is refused (R68; log 15). -/
def needZ (printed : Nat) (o : Operands) (k : Field15 → Result) : Result :=
  match o.z with
  | some z => k z
  | none => .refused (.twoAddressForm printed)

/-! ## Character fields -/

/-- A character place: a word number and a character number, 0 to 7 (R43). -/
structure Place where
  word : Nat
  char : Nat
  deriving DecidableEq, Repr

/-- The place a character address names: the character number in bits 47:45, the word number at the
l.s. end; the bits between are ignored (R42). -/
def placeOf (c : Installation) (cw : Word) : Place :=
  ⟨(addrOf c cw).toNat, (cw.extractLsb' 45 3).toNat⟩

/-- The successor of a place (R43). -/
def Place.next (p : Place) : Place :=
  if p.char < 7 then ⟨p.word, p.char + 1⟩ else ⟨p.word + 1, 0⟩

/-- The place i characters beyond character 0 of a word (R43). -/
def placeAt (word i : Nat) : Place := ⟨word + i / 8, i % 8⟩

/-- The character at a place. -/
def readChar (s : State) (p : Place) (k : Character → Result) : Result :=
  readWord s p.word fun w => k (charOf w p.char)

/-- A character write: the whole word is read, one character of it replaced, the word written
(R41). -/
def writeChar (s : State) (p : Place) (ch : Character) (k : State → Result) : Result :=
  readWord s p.word fun w => writeWord s p.word (setChar w p.char ch) k

/-- A word with the characters after character c made zero (R127). -/
def zeroTail (w : Word) (c : Nat) : Word :=
  wordOfChars fun i => if i ≤ c then charOf w i else 0#6

/-! ## Tester registers -/

/-- A register of a tester that 20E can load and 21E read back (R25, R26); lockout tester t+1. -/
inductive TesterRegister where
  | resLower
  | resUpper
  | lkLower (t : Fin 7)
  | lkUpper (t : Fin 7)
  | lkCurrent (t : Fin 7)
  | lkSW (t : Fin 7)
  deriving DecidableEq, Repr

/-- HasCurrentAddress of lockout tester t+1 (R26). -/
def hasCurrentAddress (c : Installation) (t : Fin 7) : Bool := c.hasCurrent.getLsbD t

/-- The tester number of a selecting literal: Y[3:0] (R90). -/
def testerNumber (y : Half) : Nat := (y.extractLsb' 0 4).toNat

/-- The register selector of a selecting literal: Y[5:4] (R90; log 29). -/
def testerSelector (y : Half) : Nat := (y.extractLsb' 4 2).toNat

/-- The register a literal Y selects, or the refusal of a selection B50 does not describe (R90,
R92; log 28). -/
def selectRegister (c : Installation) (y : Half) : Except Refusal TesterRegister :=
  let t := testerNumber y
  if t = 0 then
    match testerSelector y with
    | 0 => .ok .resLower
    | 1 => .ok .resUpper
    | 2 => .error (.noCurrentAddress 0)
    | _ => .error .resStrongWeakSelector
  else if h : t - 1 < 7 then
    let i : Fin 7 := ⟨t - 1, h⟩
    match testerSelector y with
    | 0 => .ok (.lkLower i)
    | 1 => .ok (.lkUpper i)
    | 2 => if hasCurrentAddress c i then .ok (.lkCurrent i) else .error (.noCurrentAddress t)
    | _ => .ok (.lkSW i)
  else .error (.testerNumber t)

/-- The order's register, or its refusal. -/
def withRegister (s : State) (y : Half) (k : TesterRegister → Result) : Result :=
  match selectRegister s.inst y with
  | .ok r => k r
  | .error e => .refused e

end Sys2Proof.Machine
end

