-- ==== Sys2Proof/Machine/Card.lean ====
section
/-!
DEFINITION. The card read partial conversion orders 102E and 103E (spec/45_card_102E_103E.md).
CS290 is not among the sources: what it would fix is free, under the constraints of R122 (log 41).
-/

namespace Sys2Proof.Machine

/-- Column j (0 to 3) of a card word: ba then bb, twelve hole positions (R120). -/
def column (w : Word) (j : Nat) : BitVec 12 := charOf w j ++ charOf w (j + 4)

/-- How many 1 bits. -/
def holes (v : BitVec 12) : Nat := ((List.range 12).filter fun i => v.getLsbD i).length

/-- `n_j`: the holes of column j under the mask, which is column 1 of y (R122). -/
def holesUnderMask (xv yv : Word) (j : Nat) : Nat := holes (column xv j &&& column yv 0)

/-- Condition (c) of R122: two or more holes in the lower curtate. -/
def manyHoles (xv yv : Word) (j : Nat) : Bool := decide (2 ≤ holesUnderMask xv yv j)

/-- Condition (b) of R122: no hole under the mask, and the only holes of the column are in the 10 or
11 position. -/
def onlyTenEleven (c : Installation) (xv yv : Word) (j : Nat) : Bool :=
  decide (holesUnderMask xv yv j = 0) && decide (column xv j ≠ 0#12) &&
  decide (column xv j &&& ~~~c.tenEleven = 0#12)

/-- A card word with column j blank. -/
def blankColumn (w : Word) (j : Nat) : Word := setChar (setChar w j 0#6) (j + 4) 0#6

/-- `v_j`: cleared under (c), without the 10/11 contribution under (b), else the free conversion's
(R122). -/
def vChar (c : Installation) (xv yv : Word) (j : Nat) : Character :=
  if manyHoles xv yv j then 0#6
  else if onlyTenEleven c xv yv j then charOf (Config.cardConv1 (blankColumn xv j) yv) j
  else charOf (Config.cardConv1 xv yv) j

/-- `u_j`: its m.s. bit says that the column has two or more holes under the mask; the other five
bits are the free conversion's (R122). -/
def uChar (xv yv : Word) (j : Nat) : Character :=
  BitVec.ofBool (manyHoles xv yv j) ++ (charOf (Config.cardConv1 xv yv) (j + 4)).extractLsb' 0 5

/-- The result of `CardConv1`: the v characters at the m.s. end, the u characters at the l.s. end
(R122 (a)). -/
def cardConv1 (c : Installation) (xv yv : Word) : Word :=
  wordOfChars fun i => if i < 4 then vChar c xv yv i else uChar xv yv (i - 4)

/-- `ov`: (b) or (c) holds for some column (R122). -/
def cardOverflow (c : Installation) (xv yv : Word) : Bool :=
  [0, 1, 2, 3].any fun j => onlyTenEleven c xv yv j || manyHoles xv yv j

/-- 102E (R121). -/
def exec102E (o : Operands) (s : State) : Result :=
  needZ 102 o fun z =>
  readWord s o.x.toNat fun xv =>
  readWord s o.y.toNat fun yv =>
  writeWord s z.toNat (cardConv1 s.inst xv yv) fun s1 =>
  nextOrder (s1.raiseOvr (cardOverflow s.inst xv yv))

/-- 103E (R123). -/
def exec103E (o : Operands) (s : State) : Result :=
  needZ 103 o fun z =>
  readWord s o.x.toNat fun xv =>
  readWord s o.y.toNat fun yv =>
  readWord s z.toNat fun zv =>
  writeWord s z.toNat (rot24 (Config.cardCheck2 xv yv zv)) nextOrder

end Sys2Proof.Machine
end

