-- ==== Sys2Proof/Machine/Leaving.lean ====
section
/-!
DEFINITION. Leaving Extracode (spec/60_exceptions.md R157, R158): what 87 and a leaving 23E do to the
mode, and the undescribed continuation that follows in the next step (log 23).
-/

namespace Sys2Proof.Machine

/-- The flip-flop is reset and no entry is recorded any more; the outcome of the modelled run stands
(R80, R82, R158). -/
def State.leave (s : State) (l : Leaving) : State :=
  { s with xcFF := false, entryF := none, leaving := some l }

/-- Writes of an undescribed continuation; one outside the store does nothing. -/
def putWords (s : State) : List (Nat × Word) → State
  | [] => s
  | (a, v) :: rest => putWords (if a < s.inst.storeSize then s.putWord a v else s) rest

/-- An undescribed continuation: pc, J, OVR and words of the store may change (R158); what only the
special orders can reach (W, testers, indicators, the bus: R161) does not (log 23). -/
def applyOpen (s : State) (e : OpenEffect) : State :=
  putWords { s with pc := (toAddr s.inst e.pc.toNat).toNat, j := toLink s.inst e.j,
                    ovr := e.ovr } e.writes

/-- The normal effects of an 87, and after them the test for abandonment of a successful jump, which
sees the new W (R80, R185). -/
def normalEffects87 (r : Normal87) (s : State) : State :=
  let s1 := applyOpen s r.effect
  if r.jumped then applyOpen s1 (Config.abandonmentTest s1) else s1

/-- What follows the order that left Extracode. -/
def finishLeaving (l : Leaving) (s0 : State) : State :=
  let s := { s0 with leaving := none }
  match l with
  | .leftBy87 r => normalEffects87 r s
  | .abandonedBy23E => applyOpen s (Config.abandon s)

end Sys2Proof.Machine
end

