-- ==== Sys2Proof/Machine/Control.lean ====
section
/-!
DEFINITION. The control orders 87 obeyed while XC_ACTIVE, 23E and 107E
(spec/40_control_87_23E_107E.md).
-/

namespace Sys2Proof.Machine

/-- `ModPart(yv)`, B50's "ym" (R80; log 21). -/
def modPart (c : Installation) (yv : Word) : Half :=
  match c.modPart with
  | .candidate => lowHalf yv
  | .unknown => Config.modPart yv

/-- W is not updated at the end of a 140 or a 141 (R80). -/
def keepsW (c : Installation) (f : Function7) : Bool := f ∈ functionsOf c [140, 141]

/-- The abandonment address after an 87: X + ym, except at the end of a 140 or 141 (R80). -/
def updateW (s : State) (f : Function7) (x : Field15) (yv : Word) : Addr :=
  if keepsW s.inst f then s.w else toAddr s.inst (x.toNat + (modPart s.inst yv).toNat)

/-- W replaced (R16). -/
def State.setW (s : State) (w : Addr) : State := { s with w := w }

/-- 87 obeyed while XC_ACTIVE (R80). What its normal effects do is settled first, in the state it is
met in; the state after shows the special effects alone, and the next step completes the order with
the normal effects and the test for abandonment (R158, log 23, Machine/Leaving.lean). -/
def exec87E (o : Operands) (s : State) : Result :=
  readWord s o.y.toNat fun yv =>
  match s.entryF with
  | none => .refused .noEntryRecorded
  | some f => .next ((s.setW (updateW s f o.x yv)).leave (.leftBy87 (Config.normal87 o s)))

/-- 23E: the indicators, and leaving by abandonment if X[5] = 1 (R81, R82). -/
def exec23E (o : Operands) (s : State) : Result :=
  if o.x.getLsbD 1 && o.x.getLsbD 4 then .refused .setAndReset
  else
    let s1 := s.actIndicators o.x
    if o.x.getLsbD 5 then
      readWord s1 o.y.toNat fun yv =>
      .next ((s1.setOvr (yv.getLsbD 47)).leave .abandonedBy23E)
    else nextOrder s1

/-- 107E: W is Y itself (R84; log 43). -/
def exec107E (o : Operands) (s : State) : Result :=
  nextOrder (s.setW (toAddr s.inst o.y.toNat))

end Sys2Proof.Machine
end

