-- ==== Sys2Proof/Machine/Conversion.lean ====
section
/-!
DEFINITION. The conversion orders 24E, 25E and 26E (spec/43_conversion_24E_25E_26E.md). All sources
are read before anything is written.
-/

namespace Sys2Proof.Machine

/-- The n-th of some words; 0 beyond them. -/
def nthWord (ws : List Word) (n : Nat) : Word := ws.getD n 0#48

/-- `TableChar(T, c)`: word c >> 3, character c & 7 (R106; log 36). -/
def tableChar (table : List Word) (c : Character) : Character :=
  charOf (nthWord table (c.toNat / 8)) (c.toNat % 8)

/-- The translation of a word: character i of the result is the xi-th of the table (R105). -/
def translateWord (table : List Word) (xv : Word) : Word :=
  wordOfChars fun i => tableChar table (charOf xv i)

/-- 24E (R105). -/
def exec24E (o : Operands) (s : State) : Result :=
  readWord s o.x.toNat fun xv =>
  readWords s o.y.toNat 8 fun table =>
  writeWord s (destOf o).toNat (translateWord table xv) nextOrder

/-- `sbit(n)`: bit n of the 144 bits of the three sources, the m.s. bit of the first one first
(R107). -/
def sourceBit (src : List Word) (n : Nat) : Bool := (nthWord src (n / 48)).getMsbD (n % 48)

/-- The word rows 2j and 2j+1 make: row r of column k is `sbit(6k+r)` (R107). -/
def rowPair (src : List Word) (j : Nat) : Word :=
  wordOfBits fun p => sourceBit src (6 * (p % 24) + (2 * j + p / 24))

/-- 25E (R107; log 37). -/
def exec25E (o : Operands) (s : State) : Result :=
  readWords s o.x.toNat 3 fun src =>
  writeWord s o.y.toNat (rowPair src 0) fun s1 =>
  writeWord s1 (o.y.toNat + 2) (rowPair src 1) fun s2 =>
  writeWord s2 (o.y.toNat + 4) (rowPair src 2) nextOrder

/-- `ColRow2` (R109; log 38). -/
def colRow2 (c : Installation) (a b : Word) : Word × Word :=
  match c.colRow2 with
  | .candidate => (highHalf a ++ highHalf b, lowHalf a ++ lowHalf b)
  | .unknown => Config.colRow2 a b

/-- 26E (R108). -/
def exec26E (o : Operands) (s : State) : Result :=
  readWords s o.x.toNat 2 fun src =>
  let r := colRow2 s.inst (nthWord src 0) (nthWord src 1)
  writeWord s o.y.toNat r.1 fun s1 =>
  writeWord s1 (o.y.toNat + 1) r.2 nextOrder

end Sys2Proof.Machine
end

