-- ==== Sys2Proof/Machine/Entering.lean ====
section
/-!
DEFINITION. The functions that enter Extracode when obeyed outside XC_ACTIVE (spec/60_exceptions.md
R140 to R153), and NORMAL, every other order (spec/30_encoding.md R63).
-/

namespace Sys2Proof.Machine

/-- 102 (R141). -/
def exec102 (o : Operands) (s : State) : Result := obeyEntering 102 o s

/-- 103 (R141). -/
def exec103 (o : Operands) (s : State) : Result := obeyEntering 103 o s

/-- 125 (R141). -/
def exec125 (o : Operands) (s : State) : Result := obeyEntering 125 o s

/-- 126 (R141). -/
def exec126 (o : Operands) (s : State) : Result := obeyEntering 126 o s

/-- 140, the first of a pair (R142). -/
def exec140 (o : Operands) (s : State) : Result := obeyEntering 140 o s

/-- 141, the first of a pair (R142). -/
def exec141 (o : Operands) (s : State) : Result := obeyEntering 141 o s

/-- 142, the second of a pair (R142). -/
def exec142 (o : Operands) (s : State) : Result := obeyEntering 142 o s

/-- 154, the second of a pair (R142). -/
def exec154 (o : Operands) (s : State) : Result := obeyEntering 154 o s

/-- 155, the second of a pair (R142). -/
def exec155 (o : Operands) (s : State) : Result := obeyEntering 155 o s

/-- 40, a division (R143). -/
def exec40 (o : Operands) (s : State) : Result := obeyEntering 40 o s

/-- 41, a division (R143). -/
def exec41 (o : Operands) (s : State) : Result := obeyEntering 41 o s

/-- 42, a division (R143). -/
def exec42 (o : Operands) (s : State) : Result := obeyEntering 42 o s

/-- 43, a division (R143). -/
def exec43 (o : Operands) (s : State) : Result := obeyEntering 43 o s

/-- 44, a division (R143). -/
def exec44 (o : Operands) (s : State) : Result := obeyEntering 44 o s

/-- 45, a division (R143). -/
def exec45 (o : Operands) (s : State) : Result := obeyEntering 45 o s

/-- 95 (R144). -/
def exec95 (o : Operands) (s : State) : Result := obeyEntering 95 o s

/-- 101 (R144). -/
def exec101 (o : Operands) (s : State) : Result := obeyEntering 101 o s

/-- 156, in monitoring or engineers mode (R153). -/
def exec156 (o : Operands) (s : State) : Result := obeyEntering 156 o s

/-- NORMAL: an entry cause met while XC_ACTIVE is refused (R156), and every other order has only
the normal effect that is in the Orion manual (R63). -/
def execNormal (active : Bool) (f : Function7) (o : Operands) (s : State) : Result :=
  if active && (entryCause ⟨f, o⟩ s).isSome then .refused .nestedEntry
  else .refused (.normalOrder f)

end Sys2Proof.Machine
end

