-- ==== Sys2Proof/Machine/Lockout.lean ====
section
/-!
DEFINITION. The lockout and reservation orders 20E, 21E, 125E and 127E
(spec/41_lockout_20E_21E_125E_127E.md).
-/

namespace Sys2Proof.Machine

/-! ## Loading and reading a tester register -/

/-- 20E's effect on the register it selects (R91). Loading an upper address puts a lockout tester
into action; the lower reservation address loses its six l.s. bits; RES_SW comes with the upper
reservation address from bit 45 and LK_SW from bit 0. -/
def loadRegister (s : State) (r : TesterRegister) (xv : Word) : State :=
  let a := addrOf s.inst xv
  match r with
  | .resLower => { s with res := { s.res with lower := BitVec.ofNat 24 (a.toNat - a.toNat % 64) } }
  | .resUpper => { s with res := { s.res with upper := a, sw := xv.getLsbD 45 } }
  | .lkLower t => s.setLockout t { s.lockout t with lower := a }
  | .lkUpper t => s.setLockout t { s.lockout t with upper := a, active := true }
  | .lkCurrent t => s.setLockout t { s.lockout t with current := a }
  | .lkSW t => s.setLockout t { s.lockout t with sw := xv.getLsbD 0 }

/-- The address held in a register, for the registers that hold one. -/
def registerAddr (s : State) : TesterRegister → Addr
  | .resLower => s.res.lower
  | .resUpper => s.res.upper
  | .lkLower t => (s.lockout t).lower
  | .lkUpper t => (s.lockout t).upper
  | .lkCurrent t => (s.lockout t).current
  | .lkSW _ => 0#24

/-- w with its ADDR_BITS l.s. bits replaced by an address. -/
def putAddr (c : Installation) (w : Word) (a : Addr) : Word :=
  putField w 0 (a.setWidth c.addrBits)

/-- The word 21E puts into x (R93): the address at the l.s. end, or the strong/weak bit in bit 0;
RES_SW in bit 45 beside the upper reservation address; every other bit is `free` (log 31). -/
def readBackWord (s : State) (r : TesterRegister) (free : Word) : Word :=
  match r with
  | .lkSW t => putBit free 0 (s.lockout t).sw
  | .resUpper => putBit (putAddr s.inst free (registerAddr s r)) 45 s.res.sw
  | .resLower => putAddr s.inst free (registerAddr s r)
  | .lkLower _ => putAddr s.inst free (registerAddr s r)
  | .lkUpper _ => putAddr s.inst free (registerAddr s r)
  | .lkCurrent _ => putAddr s.inst free (registerAddr s r)

/-- The lockout tester a register belongs to; the reservation tester is none. -/
def testerOf : TesterRegister → Option (Fin 7)
  | .resLower => none
  | .resUpper => none
  | .lkLower t => some t
  | .lkUpper t => some t
  | .lkCurrent t => some t
  | .lkSW t => some t

/-- The number of the bit of Y that keeps a tester in action: 6, or 5 under the other reading (R94;
log 30). -/
def outBitNumber (c : Installation) : Nat :=
  match c.outBit with
  | .bit6 => 6
  | .bit5 => 5

/-- The lockout tester concerned is set out of action if the bit of Y is 0 (R94). -/
def setOutOfAction (s : State) (r : TesterRegister) (y : Half) : State :=
  match testerOf r with
  | none => s
  | some t =>
    if y.getLsbD (outBitNumber s.inst) then s
    else s.setLockout t { s.lockout t with active := false }

/-- 20E (R91, R92). -/
def exec20E (o : Operands) (s : State) : Result :=
  readWord s o.x.toNat fun xv =>
  withRegister s o.y fun r =>
  nextOrder (loadRegister s r xv)

/-- 21E (R93, R94). -/
def exec21E (o : Operands) (s : State) : Result :=
  withRegister s o.y fun r =>
  writeWord (s.skipDraws 1) o.x.toNat (readBackWord s r s.drawn) fun s1 =>
  nextOrder (setOutOfAction s1 r o.y)

/-! ## The region tests -/

/-- `Applies(kind, s)` (R96; log 33). -/
def appliesTo (c : Installation) (kind : TestKind) (sw : Bool) : Bool :=
  match kind, sw with
  | .strong, false => c.applies.strong0
  | .strong, true => c.applies.strong1
  | .weak, false => c.applies.weak0
  | .weak, true => c.applies.weak1

/-- `ResDenies(kind, s, a)` (R96; log 33). -/
def resDenies (c : Installation) (kind : TestKind) (sw : Bool) (a : Nat) : Bool :=
  c.resDenies.any fun e =>
    decide (e.kind = kind) && decide (e.sw = sw) && decide (e.lower ≤ a) && decide (a ≤ e.upper)

/-- `LockedOut(t, a)` of one tester (R95). -/
def lockedOut (l : Lockout) (a : Nat) : Bool :=
  l.active && decide (l.lower.toNat ≤ a) && decide (a ≤ l.upper.toNat)

/-- `Permitted(a)` (R95). -/
def permitted (s : State) (a : Nat) : Bool :=
  decide (s.res.lower.toNat ≤ a) && decide (a ≤ s.res.upper.toNat)

/-- An address that 125E or 127E may report: locked out by a tester that applies (R97). -/
def reportable (s : State) (kind : TestKind) (a : Nat) : Bool :=
  s.lockouts.toList.any fun l => lockedOut l a && appliesTo s.inst kind l.sw

/-- Two ranges, ends included, have an address in common. -/
def rangesMeet (lo hi l u : Nat) : Bool := decide (max lo l ≤ min hi u)

/-- A tester locks out some address of the region and applies. -/
def failsIn (s : State) (kind : TestKind) (lo hi : Nat) (l : Lockout) : Bool :=
  l.active && rangesMeet lo hi l.lower.toNat l.upper.toNat && appliesTo s.inst kind l.sw

/-- `LockoutFailure(kind, lo, hi)` (R96), without running over the region. -/
def lockoutFailure (s : State) (kind : TestKind) (lo hi : Nat) : Bool :=
  s.lockouts.toList.any (failsIn s kind lo hi)

/-- `ReservationFailure(kind, lo, hi)` (R96) of a region that is not empty, without running over
it. -/
def reservationFailure (s : State) (kind : TestKind) (lo hi : Nat) : Bool :=
  !(decide (s.res.lower.toNat ≤ lo) && decide (hi ≤ s.res.upper.toNat)) ||
  s.inst.resDenies.any fun e =>
    decide (e.kind = kind) && decide (e.sw = s.res.sw) && rangesMeet lo hi e.lower e.upper

/-- The address a lockout failure reports: any reportable address of the region, as the free value
says (R97 (c); log 34). A free value that names none falls back to the lowest address of the first
tester that fails. -/
def reportedAddress (s : State) (kind : TestKind) (lo hi : Nat) (free : Word) : Nat :=
  let a := lo + free.toNat % (hi + 1 - lo)
  if reportable s kind a then a
  else match s.lockouts.toList.find? (failsIn s kind lo hi) with
    | some l => max lo l.lower.toNat
    | none => lo

/-- The result word: 0, or bit 47 and, after a lockout failure, a locked-out address in bits 23:0
(R97). -/
def regionWord (s : State) (kind : TestKind) (lo hi : Nat) : Word :=
  if lockoutFailure s kind lo hi then
    putBit (putField 0#48 0 (BitVec.ofNat 24 (reportedAddress s kind lo hi s.drawn))) 47 true
  else if reservationFailure s kind lo hi then putBit 0#48 47 true
  else 0#48

/-- The region test (R97) of either kind. -/
def testRegion (printed : Nat) (kind : TestKind) (o : Operands) (s : State) : Result :=
  needZ printed o fun z =>
  readWord s o.x.toNat fun xv =>
  readWord s o.y.toNat fun yv =>
  if highHalf xv ≠ highHalf yv then .refused .regionTopHalves
  else if (lowHalf yv).toNat < (lowHalf xv).toNat then .refused .emptyRegion
  else
    let lo := (lowHalf xv).toNat
    let hi := (lowHalf yv).toNat
    let n := if lockoutFailure s kind lo hi then 1 else 0
    writeWord (s.skipDraws n) z.toNat (regionWord s kind lo hi) nextOrder

/-- 125E, the strong test (R97). -/
def exec125E (o : Operands) (s : State) : Result := testRegion 125 .strong o s

/-- 127E, the weak test (R98). -/
def exec127E (o : Operands) (s : State) : Result := testRegion 127 .weak o s

end Sys2Proof.Machine
end

