-- ==== Sys2Proof/Machine/Peripheral.lean ====
section
/-!
DEFINITION. The peripheral bus order 22E (spec/42_peripheral_22E.md).
-/

namespace Sys2Proof.Machine

/-- The General Request: channels 0 to 7 from X[7:0], channel 8 forced to 1, the others 0 (R100). -/
def requestChannels (x : Field15) : Dollop := 1#4 ++ x.extractLsb' 0 8

/-- The two dollops the Bus In carries: of the first waiting reply, a single dollop being repeated,
or free (R101; log 35). -/
def busDollops (s : State) : Dollop × Dollop :=
  match s.replies with
  | [] => (s.drawn.extractLsb' 0 12, s.drawn.extractLsb' 12 12)
  | .one d :: _ => (d, d)
  | .two d1 d2 :: _ => (d1, d2)

/-- The state after the Bus In has been received: the reply is consumed, or two values drawn (R48,
R101). -/
def State.takeReply (s : State) : State := { s with replies := s.replies.drop 1 }

/-- The word received: the first dollop in the least significant quarter, the second in the next,
the upper half free (R101). -/
def replyWord (d1 d2 : Dollop) (free : Word) : Word := highHalf free ++ (d2 ++ d1)

/-- The control dollop of the 3-address form (R102). -/
def sendControl (o : Operands) (s : State) : State :=
  if o.a3 then s.emit (.controlDollop (o.y.extractLsb' 0 12)) else s

/-- 22E: the request, the reply into DEST, the control dollop, in that order (R100 to R103). -/
def exec22E (o : Operands) (s : State) : Result :=
  let d := busDollops s
  let s1 := (s.emit (.generalRequest (requestChannels o.x))).emit (.busIn d.1 d.2)
  writeWord (s1.takeReply.skipDraws 2) (destOf o).toNat
    (replyWord d.1 d.2 (Config.freeWord (s.draws + 1))) fun s2 =>
  nextOrder (sendControl o s2)

end Sys2Proof.Machine
end

