-- ==== Sys2Proof/Machine/Printer.lean ====
section
/-!
DEFINITION. The Anelex printer preparation orders 27E and 140E (spec/44_printer_27E_140E.md).
-/

namespace Sys2Proof.Machine

/-! ## 27E -/

/-- The listed target of a tabulate pair, if there is one. -/
def listedTarget (c2 : Character) (d : Nat) : List ((Character × Nat) × Nat) → Option Nat
  | [] => none
  | (p, t) :: rest => if p = (c2, d) then some t else listedTarget c2 d rest

/-- `TabTarget(c2, d)` (R114; log 39). -/
def tabTarget (c : Installation) (c2 : Character) (d : Nat) : Nat :=
  match listedTarget c2 d c.tabTarget with
  | some t => t
  | none => Config.tabTarget c2 d

/-- n places from destination index d on, filled with FILL, or left unchanged (R114). -/
def fillPlaces (x : Nat) (fill : Option Character) : Nat → Nat → State → (State → Result) → Result
  | 0, _, s, k => k s
  | n + 1, d, s, k =>
    match fill with
    | none => k s
    | some ch => writeChar s (placeAt x d) ch fun s1 => fillPlaces x fill n (d + 1) s1 k

/-- The word that receives the terminating pair in bits 11:0; its other bits are free (R113 item 4,
R114). -/
def pairWord (c1 c2 : Character) (free : Word) : Word := free.extractLsb' 12 36 ++ (c1 ++ c2)

/-- The loop of R114 from source index i and destination index d on; the first argument bounds the
passes. -/
def anelexLoop (x y z : Nat) : Nat → Nat → Nat → State → Result
  | 0, _, _, _ => .refused .unterminated27E
  | n + 1, i, d, s =>
    if s.inst.max27 ≤ i then .refused .unterminated27E
    else
      readChar s (placeAt (y + 1) i) fun c =>
      if c = s.inst.nlCode ∨ c = s.inst.ptCode then
        readChar s (placeAt (y + 1) (i + 1)) fun c2 =>
        writeWord (s.skipDraws 1) z (pairWord c c2 s.drawn) nextOrder
      else if c = s.inst.tabCode then
        readChar s (placeAt (y + 1) (i + 1)) fun c2 =>
        let t := tabTarget s.inst c2 d
        fillPlaces x s.inst.fill27 (t - d) d s fun s1 => anelexLoop x y z n (i + 2) t s1
      else
        writeChar s (placeAt x d) c fun s1 => anelexLoop x y z n (i + 1) (d + 1) s1

/-- 27E (R113), by the skeleton of R114 (log 39). -/
def exec27E (o : Operands) (s : State) : Result :=
  needZ 27 o fun z => anelexLoop o.x.toNat o.y.toNat z.toNat s.inst.max27 0 0 s

/-! ## 140E -/

/-- `WheelIndex` of a character (R116; log 40). -/
def wheelIndex (c : Installation) (ch : Character) : Nat := c.wheel.getD ch.toNat ch.toNat

/-- The image word of a character: Y + 3k (R115). -/
def imageWord (c : Installation) (y : Nat) (ch : Character) : Nat := y + 3 * wheelIndex c ch

/-- The bits of characters i, i+1, ... of x placed in the image: the insertion bit shifted down i
places is ORed into the character's word (R116). -/
def placeBits (y : Nat) (xv zv : Word) : List Nat → State → (State → Result) → Result
  | [], s, k => k s
  | i :: rest, s, k =>
    readWord s (imageWord s.inst y (charOf xv i)) fun w =>
    writeWord s (imageWord s.inst y (charOf xv i)) (w ||| (zv >>> i)) fun s1 =>
    placeBits y xv zv rest s1 k

/-- 140E (R116): the eight bits, then the insertion bit shifted down 8 places. -/
def exec140E (o : Operands) (s : State) : Result :=
  needZ 140 o fun z =>
  readWord s o.x.toNat fun xv =>
  readWord s z.toNat fun zv =>
  placeBits o.y.toNat xv zv [0, 1, 2, 3, 4, 5, 6, 7] s fun s1 =>
  writeWord s1 z.toNat (zv >>> 8) nextOrder

end Sys2Proof.Machine
end

