-- ==== Sys2Proof/Machine/Transfer.lean ====
section
/-!
DEFINITION. The character transfer orders 105E and 106E (spec/46_chartransfer_105E_106E.md).
-/

namespace Sys2Proof.Machine

/-- `Transfer` (R127) of n characters from one place to another, k of them moved before: one at a
time, each written before the next is read; after the last one, by count or by the stopping
character, the rest of its destination word is made zero. The continuation gets the number moved
(log 42). -/
def transfer (stop : Character → Bool) :
    Nat → Place → Place → Nat → State → (State → Nat → Result) → Result
  | 0, _, _, moved, s, k => k s moved
  | n + 1, src, dst, moved, s, k =>
    readChar s src fun ch =>
    writeChar s dst ch fun s1 =>
    if n = 0 ∨ stop ch then
      readWord s1 dst.word fun w =>
      writeWord s1 dst.word (zeroTail w dst.char) fun s2 => k s2 (moved + 1)
    else transfer stop n src.next dst.next (moved + 1) s1 k

/-- What 105E and 106E share (R128, R129): the operands, the refusal of a negative count, the
transfer. -/
def transferOrder (printed : Nat) (stop : Installation → Character → Bool) (o : Operands)
    (s : State) (k : Field15 → State → Nat → Result) : Result :=
  needZ printed o fun z =>
  readWord s o.x.toNat fun xv =>
  readWord s o.y.toNat fun yv =>
  readWord s z.toNat fun zv =>
  if zv.getLsbD 47 then .refused .negativeCount
  else
    transfer (stop s.inst) zv.toNat (placeOf s.inst xv) (placeOf s.inst yv) 0 s (k z)

/-- The stop of 106E: the NL character (R129). -/
def isNL (c : Installation) (ch : Character) : Bool := decide (ch = c.nlCode)

/-- 105E (R128). -/
def exec105E (o : Operands) (s : State) : Result :=
  transferOrder 105 (fun _ _ => false) o s fun _ s1 _ => nextOrder s1

/-- 106E (R129): stops after an NL, and writes the number of characters moved to Z last. -/
def exec106E (o : Operands) (s : State) : Result :=
  transferOrder 106 isNL o s fun z s1 moved =>
  writeWord s1 z.toNat (BitVec.ofNat 48 moved) nextOrder

end Sys2Proof.Machine
end

