-- ==== Sys2Proof/Machine/Dispatch.lean ====
section
/-!
DEFINITION. One arm for each order: which meaning it has.
-/

namespace Sys2Proof.Machine

def exec (i : Instr) (s : State) : Host.Outcome State Fault Refusal :=
  match i with
  | .op87E o => Sys2Proof.Machine.exec87E o s
  | .op20E o => Sys2Proof.Machine.exec20E o s
  | .op21E o => Sys2Proof.Machine.exec21E o s
  | .op22E o => Sys2Proof.Machine.exec22E o s
  | .op23E o => Sys2Proof.Machine.exec23E o s
  | .op24E o => Sys2Proof.Machine.exec24E o s
  | .op25E o => Sys2Proof.Machine.exec25E o s
  | .op26E o => Sys2Proof.Machine.exec26E o s
  | .op27E o => Sys2Proof.Machine.exec27E o s
  | .op102E o => Sys2Proof.Machine.exec102E o s
  | .op103E o => Sys2Proof.Machine.exec103E o s
  | .op105E o => Sys2Proof.Machine.exec105E o s
  | .op106E o => Sys2Proof.Machine.exec106E o s
  | .op107E o => Sys2Proof.Machine.exec107E o s
  | .op125E o => Sys2Proof.Machine.exec125E o s
  | .op127E o => Sys2Proof.Machine.exec127E o s
  | .op140E o => Sys2Proof.Machine.exec140E o s
  | .op102 o => Sys2Proof.Machine.exec102 o s
  | .op103 o => Sys2Proof.Machine.exec103 o s
  | .op125 o => Sys2Proof.Machine.exec125 o s
  | .op126 o => Sys2Proof.Machine.exec126 o s
  | .op140 o => Sys2Proof.Machine.exec140 o s
  | .op141 o => Sys2Proof.Machine.exec141 o s
  | .op142 o => Sys2Proof.Machine.exec142 o s
  | .op154 o => Sys2Proof.Machine.exec154 o s
  | .op155 o => Sys2Proof.Machine.exec155 o s
  | .op40 o => Sys2Proof.Machine.exec40 o s
  | .op41 o => Sys2Proof.Machine.exec41 o s
  | .op42 o => Sys2Proof.Machine.exec42 o s
  | .op43 o => Sys2Proof.Machine.exec43 o s
  | .op44 o => Sys2Proof.Machine.exec44 o s
  | .op45 o => Sys2Proof.Machine.exec45 o s
  | .op95 o => Sys2Proof.Machine.exec95 o s
  | .op101 o => Sys2Proof.Machine.exec101 o s
  | .op156 o => Sys2Proof.Machine.exec156 o s
  | .normal active f o => Sys2Proof.Machine.execNormal active f o s

end Sys2Proof.Machine
end

