-- ==== Sys2Proof/Machine/Fetch.lean ====
section
/-!
DEFINITION. What a step does around an order: what the outside has done since the last one is taken
(spec/20_memory.md R50), and the word at pc is read and decoded (spec/30_encoding.md R62, R64;
20_memory.md R54). Also how an order is placed where the next step fetches it (log 4).
-/

namespace Sys2Proof.Machine

/-! ## The outside -/

/-- A peripheral control may write a word only inside the locked-out region of its tester while that
is in action (R50), and inside the store. -/
def transferAllowed (s : State) (t : Fin 7) (a : Addr) : Bool :=
  (s.lockout t).active && decide ((s.lockout t).lower.toNat ≤ a.toNat) &&
  decide (a.toNat ≤ (s.lockout t).upper.toNat) && decide (a.toNat < s.inst.storeSize)

/-- One thing the outside does; what R50 does not allow does nothing (log 44). -/
def takeInput (s : State) : Input → State
  | .handkey b => { s with xcKey := b }
  | .options p => { s with opt := p }
  | .transfer t a v => if transferAllowed s t a then s.putWord a.toNat v else s
  | .current t a =>
    if s.inst.hasCurrent.getLsbD t then
      s.setLockout t { s.lockout t with current := toAddr s.inst a.toNat }
    else s

/-- All that the outside has done, in order. -/
def takeInputs (s : State) : State := { s.inputs.foldl takeInput s with inputs := [] }

/-! ## Fetch and decode -/

/-- The listed order record of a word, if there is one. -/
def listedOrder (w : Word) : List (Word × Order) → Option Order
  | [] => none
  | (v, o) :: rest => if v = w then some o else listedOrder w rest

/-- `Decode(word, state)`: the open function from a word to an order record (R64; log 2). -/
def orderOfWord (s : State) (w : Word) : Order :=
  match listedOrder w s.inst.decode with
  | some o => o
  | none => Config.decode w s

/-- The order at pc, decoded in the mode the machine is in (R54, R60, R62, R64). -/
def fetchedInstr (s : State) : Instr :=
  decodeOrder s.inst.code s.xcActive (orderOfWord s (s.mem.read s.pc))

/-- Fetch, or the fault of a pc outside the store (R12). -/
def fetch (s : State) (k : Instr → Result) : Result :=
  readWord s s.pc fun _ => k (fetchedInstr s)

/-- One order: what the outside has done is taken, and the order at pc is obeyed, given the meaning
of every order. -/
def obeyNext (run : Instr → State → Result) (s0 : State) : Result :=
  let s := takeInputs s0
  fetch s fun i => run i s

/-- A whole step, given the meaning of every order: the sticky marks stop it (R30, log 13); an order
that has just left Extracode is completed before anything else happens (R47, R158, log 23); else one
order is obeyed. -/
def stepWith (run : Instr → State → Result) (s : State) : Result :=
  match s.faulted, s.refusedMark, s.leaving with
  | some r, _, _ => .fault r
  | none, some r, _ => .refused r
  | none, none, some l => .next (finishLeaving l s)
  | none, none, none => obeyNext run s

/-! ## Placing an order -/

/-- The word that stands for a placed order in the store: the l.s. 48 bits of its record word. Any
word would do, since Decode is told what it means (log 4). -/
def placedWord (i : Instr) : Word := (encodeRecord functionCode i).setWidth 48

/-- Where the next step fetches: pc, or word 0 if pc is outside the store. -/
def fetchAddress (s : State) : Nat := if s.pc < s.inst.storeSize then s.pc else 0

/-- The function an Extracode mode set by `placeInstr` counts as entered by: the one recorded, else
102. -/
def placedEntryF (s : State) : Function7 := s.entryF.getD (s.inst.code 102)

/-- s made ready for its next step to obey exactly i: the word that stands for i is in the store
where the step fetches and Decode gives it i's record; the mode is the one i is obeyed in, with an
entry recorded in Extracode mode; nothing else is pending. -/
def State.placeInstr (s : State) (i : Instr) : State :=
  { s with
    mem := s.mem.write (fetchAddress s) (placedWord i)
    pc := fetchAddress s
    xcFF := i.active
    xcKey := s.xcKey && i.active
    entryF := if i.active then some (placedEntryF s) else none
    leaving := none
    faulted := none
    refusedMark := none
    inputs := []
    inst := { s.inst with decode := (placedWord i, i.order s.inst.code) :: s.inst.decode } }

/-- s made ready to obey the order whose bits are w, nbits of them given and the rest zero. -/
def placeTableWord (s : State) (nbits w : Nat) : State :=
  match decodeTableWord nbits w with
  | some i => s.placeInstr i
  | none => s

end Sys2Proof.Machine
end

