-- ==== Sys2Proof/Safety.lean ====
section
/-!
DEFINITION. What claims are stated in terms of: the invariant of the state, the store as a sequence
of characters, a step that records its outcome in the sticky marks (spec/10_state.md R30), and the
end of a modelled run (spec/60_exceptions.md R158).
-/

namespace Sys2Proof.Machine

/-- Every General Request has the ninth channel forced and the three above it 0 (R100). -/
def BusEvent.wf : BusEvent → Bool
  | .generalRequest c => decide (c.extractLsb' 8 4 = 1#4)
  | .busIn _ _ => true
  | .controlDollop _ => true

/-- The address registers of a lockout tester hold addresses of n bits. -/
def Lockout.wf (n : Nat) (l : Lockout) : Bool :=
  decide (l.lower.toNat < 2 ^ n) && decide (l.upper.toNat < 2 ^ n) &&
  decide (l.current.toNat < 2 ^ n)

/-- What every step keeps. -/
structure State.Inv (s : State) : Prop where
  /-- the laws of the parameters -/
  inst : s.inst.wf = true
  /-- the store is in canonical form (log 8) -/
  mem : s.mem.wf = true
  /-- the store has STORE_SIZE words (R11) -/
  within : s.mem.within s.inst.storeSize = true
  /-- pc is an address, or the one past the last (R12) -/
  pc : s.pc ≤ 2 ^ s.inst.addrBits
  /-- W has ADDR_BITS bits (R16) -/
  w : s.w.toNat < 2 ^ s.inst.addrBits
  /-- J has J_BITS bits (R17) -/
  j : s.j.toNat < 2 ^ s.inst.jBits
  /-- RES_LOWER has ADDR_BITS bits (R25) -/
  resLower : s.res.lower.toNat < 2 ^ s.inst.addrBits
  /-- RES_LOWER is 0 mod 64 (R25) -/
  resAligned : s.res.lower.toNat % 64 = 0
  /-- RES_UPPER has ADDR_BITS bits (R25) -/
  resUpper : s.res.upper.toNat < 2 ^ s.inst.addrBits
  /-- so have the registers of the lockout testers (R26) -/
  lockouts : ∀ t : Fin 7, (s.lockout t).wf s.inst.addrBits = true
  /-- the flip-flop is set exactly while an entry is recorded (R23, R80, R82, R145) -/
  entry : s.xcFF = s.entryF.isSome
  /-- and the entry was made by a function that can enter (R71) -/
  entryF : ∀ f, s.entryF = some f → f ∈ enteringFunctions.map s.inst.code
  /-- the bus history (R100) -/
  bus : ∀ e ∈ s.bus, e.wf = true
  /-- Extracode that has just been left is not the mode any more (R157) -/
  left : s.leaving.isSome = true → s.xcFF = false

/-- The i-th character of the store, counted from character 0 of word 0. -/
def charAt (m : Memory) (i : Nat) : Character := charOf (m.read (i / 8)) (i % 8)

/-- A step that records a fault or a refusal in the sticky marks instead of stopping (R30). -/
def State.recorded (s : State) : State :=
  match step s with
  | .next t => t
  | .fault r => { s with faulted := some r }
  | .refused r => { s with refusedMark := some r }

/-- n recorded steps. -/
def State.recordedRun : Nat → State → State
  | 0, s => s
  | n + 1, s => State.recordedRun n s.recorded

/-- The outcome of a finished modelled run, `LeftBy87` or `AbandonedBy23E`: a run that reaches a
fault or a refusal is not a finished run (R158). -/
def State.runOutcome (s : State) : Option Leaving :=
  match s.faulted, s.refusedMark with
  | none, none => s.leaving
  | _, _ => none

end Sys2Proof.Machine
end

