-- ==== Sys2Proof/Certificates/Slice0/Obligations.lean ====
section
/-!
DEFINITION. The statements for the provers. Each names in its docstring the rule of spec/ it
formalises, or the log entry where it rests on a choice of the model.

A store is read through `Memory.read`; `s.mem.wf` (the canonical form, log 8) is a premise wherever
a statement reads the store after a write: a store that is not in canonical form is no state of a run.
-/

namespace Sys2Proof.Claims

open Sys2Proof.Machine

/-- An address of the store. -/
abbrev InStore (s : State) (a : Nat) : Prop := a < s.inst.storeSize

/-- Nothing but the store and pc has changed, and pc has gone on to the next order. -/
def NextWithStore (s t : State) : Prop := t = { s with mem := t.mem, pc := s.pc + 1 }

/-- The same, but free values may have been drawn. -/
def NextWithDraws (s t : State) : Prop :=
  t = { s with mem := t.mem, pc := s.pc + 1, draws := t.draws }

/-- Every word but those at the listed addresses reads as before. -/
def SameWordsBut (as : List Nat) (s t : State) : Prop :=
  ∀ a, a ∉ as → t.mem.read a = s.mem.read a

/-- The index of the character a character address names (R42). -/
def charIndex (c : Installation) (cw : Word) : Nat :=
  8 * (addrOf c cw).toNat + (cw.extractLsb' 45 3).toNat

/-- The orders that can enter Extracode, with their printed functions (R140). -/
def enteringOrders (o : Operands) : List (Instr × Nat) :=
  [(.op102 o, 102), (.op103 o, 103), (.op125 o, 125), (.op126 o, 126), (.op140 o, 140),
   (.op141 o, 141), (.op142 o, 142), (.op154 o, 154), (.op155 o, 155), (.op40 o, 40),
   (.op41 o, 41), (.op42 o, 42), (.op43 o, 43), (.op44 o, 44), (.op45 o, 45), (.op95 o, 95),
   (.op101 o, 101), (.op156 o, 156)]

/-- The frame of an entry to Extracode (R145): the flip-flop is set, the next order is in 517, the
function is recorded (which, ModeChangesOnlySo says), the words 512 to 516 are written, and nothing
else changes. -/
def Entered (s t : State) : Prop :=
  t = { s with mem := t.mem, pc := 517, xcFF := true, entryF := t.entryF, draws := t.draws } ∧
  SameWordsBut [512, 513, 514, 515, 516] s t

/-- The indicators after 23E with action bits x: X0 to X3 set one each, X4 resets "Peripheral
Incident", a zero bit changes nothing (R81). -/
def indicated (x : Field15) (d : Indicators) : Indicators where
  programFail := if x.getLsbD 0 then true else d.programFail
  peripheralIncident := if x.getLsbD 4 then false
    else if x.getLsbD 1 then true else d.peripheralIncident
  peripheralLockout := if x.getLsbD 2 then true else d.peripheralLockout
  requirementSet := if x.getLsbD 3 then true else d.requirementSet

/-- The places from d to e-1 filled with FILL, or left unchanged (R114). -/
def fills (fill : Option Character) (d e : Nat) : List (Nat × Character) :=
  match fill with
  | none => []
  | some ch => (List.range' d (e - d)).map fun q => (q, ch)

/-- What the last write to place q writes, if there is one. -/
def lastWrite (q : Nat) : List (Nat × Character) → Option Character
  | [] => none
  | (d, ch) :: rest => (lastWrite q rest).or (if d = q then some ch else none)

/-- The q-th character of the store once the writes ws have been made to places counted from
character 0 of word x. -/
def charAfter (m : Memory) (x : Nat) (ws : List (Nat × Character)) (q : Nat) : Character :=
  if q < 8 * x then charAt m q else (lastWrite (q - 8 * x) ws).getD (charAt m q)

/-- The i-th character of the source field of 27E once the writes ws have been made (R113). -/
def sourceChar (m : Memory) (o : Operands) (ws : List (Nat × Character)) (i : Nat) : Character :=
  charAfter m o.x.toNat ws (8 * (o.y.toNat + 1) + i)

/-- The character that ends 27E (R113 item 4). -/
abbrev Ends (c : Installation) (ch : Character) : Prop := ch = c.nlCode ∨ ch = c.ptCode

/-- `Scanned c m o i d ws`: 27E comes to source character i and destination place d, with no NL or
PT met, having made the writes ws, each before the next character is read (R113, R114). -/
inductive Scanned (c : Installation) (m : Memory) (o : Operands) :
    Nat → Nat → List (Nat × Character) → Prop where
  | start : Scanned c m o 0 0 []
  | tab {i d : Nat} {ws : List (Nat × Character)} : Scanned c m o i d ws → i < c.max27 →
      ¬ Ends c (sourceChar m o ws i) → sourceChar m o ws i = c.tabCode →
      Scanned c m o (i + 2) (tabTarget c (sourceChar m o ws (i + 1)) d)
        (ws ++ fills c.fill27 d (tabTarget c (sourceChar m o ws (i + 1)) d))
  | plain {i d : Nat} {ws : List (Nat × Character)} : Scanned c m o i d ws → i < c.max27 →
      ¬ Ends c (sourceChar m o ws i) → sourceChar m o ws i ≠ c.tabCode →
      Scanned c m o (i + 1) (d + 1) (ws ++ [(d, sourceChar m o ws i)])

/-- The character the k-th move of a transfer from index src to index dst moves. Characters go one
at a time in ascending order, so a destination that begins inside the source repeats its first
characters (R127; log 42). -/
def movedChar (m : Memory) (src dst k : Nat) : Character :=
  charAt m (src + if src < dst then k % (dst - src) else k)

/-- The store after a transfer of n > 0 characters, n-1 of them to places after the first (R127):
the characters moved are in place, the rest of the last destination word is zero, the characters
before the first destination place are kept. -/
def Transferred (s t : State) (src dst n : Nat) : Prop :=
  (∀ k, k < n → charAt t.mem (dst + k) = movedChar s.mem src dst k) ∧
  (∀ q, dst + n ≤ q → q / 8 = (dst + n - 1) / 8 → charAt t.mem q = 0#6) ∧
  (∀ q, q / 8 = dst / 8 → q < dst → charAt t.mem q = charAt s.mem q)

end Sys2Proof.Claims

open Sys2Proof Sys2Proof.Machine Sys2Proof.Claims

/-! ## Encoding and decoding -/

/-- Words of spec/opcode_table.json decode to the orders of their rows: one of each family by its
match value alone (the record's other bits zero: 3-address, X = Y = Z = 0; the record layout is the
model's, log 3), and one with all operands. -/
def Obligations.TableWordsDecode : Prop :=
  decodeTableWord 8 0xC7 = some (.op87E ⟨0, 0, some 0⟩) ∧
  decodeTableWord 8 0x90 = some (.op20E ⟨0, 0, some 0⟩) ∧
  decodeTableWord 8 0x92 = some (.op22E ⟨0, 0, some 0⟩) ∧
  decodeTableWord 8 0x95 = some (.op25E ⟨0, 0, some 0⟩) ∧
  decodeTableWord 8 0xF0 = some (.op140E ⟨0, 0, some 0⟩) ∧
  decodeTableWord 8 0xD2 = some (.op102E ⟨0, 0, some 0⟩) ∧
  decodeTableWord 8 0xD5 = some (.op105E ⟨0, 0, some 0⟩) ∧
  decodeTableWord 8 0x52 = some (.op102 ⟨0, 0, some 0⟩) ∧
  decodeTableWord 8 0x7E = some (.op156 ⟨0, 0, some 0⟩) ∧
  decodeTableWord 8 0x00 = some (.normal false 0 ⟨0, 0, some 0⟩) ∧
  decodeTableWord 63 (0x52 + 5 * 2 ^ 9 + 0x123 * 2 ^ 24 + 7 * 2 ^ 48) =
    some (.op102 ⟨5, 0x123, some 7⟩)

/-- Decoding the bytes of a well-formed order gives it back, with every operand at every value,
however functions are spelled (log 1, log 3). -/
def Obligations.DecodeEncodeAgree : Prop :=
  ∀ (code : Nat → Function7) (i : Instr), CodesDistinct code → WellFormed code i →
    decodeBytes code (encode code i) = .ok i

/-- Bytes that decode are the bytes of the order they decode to, which is well formed: no two byte
strings mean one order (log 3). -/
def Obligations.EncodeDecodeAgree : Prop :=
  ∀ (code : Nat → Function7) (bs : List (BitVec 8)) (i : Instr), decodeBytes code bs = .ok i →
    encode code i = bs ∧ WellFormed code i

/-- The decode of an order record loses nothing: the order decoded carries the record and the mode
it was decoded in, and no record is refused (R62, R63). -/
def Obligations.DecodeKeepsRecord : Prop :=
  ∀ (code : Nat → Function7) (active : Bool) (o : Order),
    (decodeOrder code active o).order code = o ∧ (decodeOrder code active o).active = active ∧
    WellFormed code (decodeOrder code active o)

/-- FunctionCode is open: an installation spells a function as it lists it, else by the default, in
which the seven F-bits of a function printed h d are 8h + d and give the printed number back (the
spec's inference, R66, 92_eei_decisions.md D1, log 1). -/
def Obligations.FunctionNumbers : Prop :=
  (∀ h d : Nat, h < 16 → d < 8 →
    (functionCode (10 * h + d)).toNat = 8 * h + d ∧
    printedFunction (functionCode (10 * h + d)) = 10 * h + d) ∧
  (∀ (c : Installation) (p : Nat), (∀ e ∈ c.codes, e.1 ≠ p) → c.code p = functionCode p) ∧
  (∀ (c : Installation) (p : Nat) (f : Function7) (rest : List (Nat × Function7)),
    c.codes = (p, f) :: rest → c.code p = f)

/-! ## The step -/

/-- With no sticky mark and no order to complete, a step first takes what the outside has done;
then, if pc is in the store, it is exec of the order that the word at pc decodes to, with its
special effects if XC_FF or the handkey is 1 (R60); the record of a word is the one the installation
lists for it (log 2, log 44). If pc is outside the store it is the fault StoreBound (R12, log 11).
-/
def Obligations.StepObeysDecodedOrder : Prop :=
  ∀ s u : State, s.faulted = none → s.refusedMark = none → s.leaving = none → u = takeInputs s →
    (InStore u u.pc →
      step s = exec (decodeOrder u.inst.code (u.xcFF || u.xcKey)
        (orderOfWord u (u.mem.read u.pc))) u ∧
      ∀ o, listedOrder (u.mem.read u.pc) u.inst.decode = some o →
        step s = exec (decodeOrder u.inst.code (u.xcFF || u.xcKey) o) u) ∧
    (¬ InStore u u.pc → step s = .fault (.storeBound u.pc))

/-- A fault or a refusal that has been recorded stays recorded, whatever follows (R30, log 13). -/
def Obligations.MarksAreSticky : Prop :=
  ∀ (s : State) (n : Nat),
    (∀ r, s.faulted = some r → (State.recordedRun n s).faulted = some r) ∧
    (∀ r, s.faulted = none → s.refusedMark = some r →
      (State.recordedRun n s).refusedMark = some r ∧ (State.recordedRun n s).faulted = none)

/-- The step after the order that left Extracode completes it, before anything the outside has done
is taken: the machine goes on at an address, with everything unchanged that only special orders
reach; after an 87 whose jump was not successful, pc, J and OVR are those of its normal effects (log
23). -/
def Obligations.LeavingGoesOn : Prop :=
  ∀ (s : State) (l : Leaving), s.inst.addrBits ≤ 24 → s.faulted = none → s.refusedMark = none →
    s.leaving = some l →
    ∃ t, step s = .next t ∧ t.pc < 2 ^ s.inst.addrBits ∧
      t = { s with mem := t.mem, pc := t.pc, j := t.j, ovr := t.ovr, leaving := none } ∧
      (s.mem.wf = true → ∀ a, ¬ InStore s a → t.mem.read a = s.mem.read a) ∧
      (∀ r, l = .leftBy87 r → r.jumped = false →
        t.pc = r.effect.pc.toNat % 2 ^ s.inst.addrBits ∧ t.j = toLink s.inst r.effect.j ∧
        t.ovr = r.effect.ovr)

/-- An order placed by withFetchWord is what the very next step obeys (log 4; an order that the
installation's FunctionCode spells as another cannot be placed). -/
def Obligations.PlacedOrderRuns : Prop :=
  ∀ (s : State) (nbits w : Nat) (i : Instr), s.mem.wf = true → InStore s 0 →
    CodesDistinct s.inst.code → WellFormed s.inst.code i → decodeTableWord nbits w = some i →
    step (s.withFetchWord nbits w) = exec i (s.withFetchWord nbits w)

/-- What the outside does between two orders reaches only the handkey, the option flip-flops,
current addresses of lockout testers, and words inside the locked-out region of a tester in action
(the spec's reading, 20_memory.md; log 44). -/
def Obligations.OutsideIsConfined : Prop :=
  ∀ s : State, s.mem.wf = true →
    takeInputs s = { s with mem := (takeInputs s).mem, xcKey := (takeInputs s).xcKey,
                            opt := (takeInputs s).opt, lockouts := (takeInputs s).lockouts,
                            inputs := [] } ∧
    (∀ t : Fin 7, (takeInputs s).lockout t =
      { s.lockout t with current := ((takeInputs s).lockout t).current }) ∧
    (∀ a, (takeInputs s).mem.read a ≠ s.mem.read a → InStore s a ∧
      ∃ t : Fin 7, lockedOut (s.lockout t) a = true)

/-! ## The invariant -/

/-- The invariant holds after reset (the reset values other than ENTRY_F and BUS are the model's
choice, log 5, log 6). -/
def Obligations.ResetHoldsInvariant : Prop := State.reset.Inv

/-- Every step keeps the invariant: the canonical store, the widths of the address registers, the
lower reservation address 0 mod 64, the flip-flop set exactly while an entry is recorded, the form
of the bus history. -/
def Obligations.StepKeepsInvariant : Prop :=
  ∀ s t : State, s.Inv → step s = .next t → t.Inv

/-- After reset no entry is recorded, the bus history is empty and the sticky marks are clear
(R170, R28, R30). -/
def Obligations.ResetAsSpecified : Prop :=
  State.reset.entryF = none ∧ State.reset.bus = [] ∧ State.reset.faulted = none ∧
  State.reset.refusedMark = none ∧ State.reset.mem.wf = true

/-- Two stores in canonical form that read alike are the same list (log 8). -/
def Obligations.CanonicalStoresAreEqual : Prop :=
  ∀ m m' : Memory, m.wf = true → m'.wf = true → (∀ a, m.read a = m'.read a) → m = m'

/-! ## Rules over all orders -/

/-- W is written by 87E and 107E alone (R16). -/
def Obligations.OnlyJumpAndSetWriteW : Prop :=
  ∀ (i : Instr) (s t : State), exec i s = .next t →
    t.w = s.w ∨ (∃ o, i = .op87E o) ∨ (∃ o, i = .op107E o)

/-- OVR is changed only by 102E, which can only set it, and by a leaving 23E (R15). -/
def Obligations.OnlyCardAndAbandonChangeOvr : Prop :=
  ∀ (i : Instr) (s t : State), exec i s = .next t →
    t.ovr = s.ovr ∨ (t.ovr = true ∧ ∃ o, i = .op102E o) ∨
    (∃ o, i = .op23E o ∧ o.x.getLsbD 5 = true)

/-- The mode changes in three ways only (R13, R23, R157, R161): it is kept; an entering order obeyed
outside XC_ACTIVE sets the flip-flop, records its function and goes to 517; 87E or a 23E with X5 = 1
resets it and forgets the entry. -/
def Obligations.ModeChangesOnlySo : Prop :=
  ∀ (i : Instr) (s t : State), exec i s = .next t →
    (t.xcFF = s.xcFF ∧ t.entryF = s.entryF ∧ t.leaving = s.leaving ∧ t.pc = s.pc + 1) ∨
    (s.xcActive = false ∧ i.active = false ∧ t.xcFF = true ∧
      t.entryF = some (i.function s.inst.code) ∧
      t.leaving = s.leaving ∧ t.pc = 517) ∨
    (((∃ o, i = .op87E o ∧ t.leaving = some (.leftBy87 (Config.normal87 o s))) ∨
        (∃ o, i = .op23E o ∧ o.x.getLsbD 5 = true ∧ t.leaving = some .abandonedBy23E)) ∧
      t.xcFF = false ∧ t.entryF = none ∧ t.pc = s.pc)

/-- The testers are changed by 20E and 21E alone, and 21E at most takes a lockout tester out of
action (R25, R26, R27, R99). -/
def Obligations.OnlyTesterOrdersChangeTesters : Prop :=
  ∀ (i : Instr) (s t : State), exec i s = .next t →
    (t.res = s.res ∧ t.lockouts = s.lockouts) ∨ (∃ o, i = .op20E o) ∨
    ((∃ o, i = .op21E o) ∧ t.res = s.res ∧
      ∀ u : Fin 7, t.lockout u = s.lockout u ∨
        t.lockout u = { s.lockout u with active := false })

/-- The indicators are changed by 23E alone, and the bus history is added to by 22E alone and never
shortened (R18, R28). -/
def Obligations.IndicatorsAndBusHaveOneWriter : Prop :=
  ∀ (i : Instr) (s t : State), exec i s = .next t →
    (t.ind = s.ind ∨ ∃ o, i = .op23E o) ∧
    (t.bus = s.bus ∨ (∃ o, i = .op22E o) ∧ ∃ e, t.bus = s.bus ++ e)

/-- No order writes the handkey, the mode and option flip-flops or J, nor changes the installation
or the sticky marks (R14, R19 to R22, R30). -/
def Obligations.NoOrderWritesInputs : Prop :=
  ∀ (i : Instr) (s t : State), exec i s = .next t →
    t.xcKey = s.xcKey ∧ t.opt = s.opt ∧ t.j = s.j ∧ t.inst = s.inst ∧ t.inputs = s.inputs ∧
    t.faulted = s.faulted ∧ t.refusedMark = s.refusedMark

/-- No order changes a word outside the store, and every order keeps the store canonical (R11,
R44). -/
def Obligations.OrdersStayInStore : Prop :=
  ∀ (i : Instr) (s t : State), s.mem.wf = true → exec i s = .next t →
    t.mem.wf = true ∧ ∀ a, ¬ InStore s a → t.mem.read a = s.mem.read a

/-! ## 87E, 23E, 107E -/

/-- 87 obeyed while XC_ACTIVE with an entry recorded completes: its normal effects are settled in
the state it is met in (Normal87, R80) and stand with the outcome LeftBy87, the flip-flop is reset,
W becomes X + ym mod 2^ADDR_BITS except at the end of a 140 or 141, and nothing else changes before
the normal effects and the test for abandonment are carried out, which LeavingGoesOn says (log 23);
ym is yv[23:0] where the candidate is taken (log 20, log 21). -/
def Obligations.JumpLeavesExtracode : Prop :=
  ∀ (o : Operands) (s : State) (f : Function7), s.inst.addrBits ≤ 24 → InStore s o.y.toNat →
    s.entryF = some f →
    ∃ t, exec (.op87E o) s = .next t ∧
      t = { s with xcFF := false, entryF := none,
                   leaving := some (.leftBy87 (Config.normal87 o s)), w := t.w } ∧
      (f = s.inst.code 140 ∨ f = s.inst.code 141 → t.w = s.w) ∧
      (f ≠ s.inst.code 140 → f ≠ s.inst.code 141 → t.w.toNat =
        (o.x.toNat + (modPart s.inst (s.mem.read o.y.toNat)).toNat) % 2 ^ s.inst.addrBits) ∧
      (s.inst.modPart = .candidate → modPart s.inst (s.mem.read o.y.toNat) =
        (s.mem.read o.y.toNat).extractLsb' 0 24)

/-- 87 faults if y is outside the store, whether or not an entry is recorded; if y can be read and
no entry is recorded it is refused (log 20). -/
def Obligations.JumpNeedsRecordedEntry : Prop :=
  ∀ (o : Operands) (s : State),
    (¬ InStore s o.y.toNat → exec (.op87E o) s = .fault (.storeBound o.y.toNat)) ∧
    (InStore s o.y.toNat → s.entryF = none → exec (.op87E o) s = .refused .noEntryRecorded)

/-- A W that the program set by 107E is overwritten with X + ym by the next 87 unless the entry was
for a 140 or a 141, which keep it (R179; where X + ym is no address, JumpLeavesExtracode says what
the model does). -/
def Obligations.JumpOverwritesW : Prop :=
  ∀ (o p : Operands) (s u t : State) (f : Function7) (ym : Half), s.inst.addrBits ≤ 24 →
    s.entryF = some f → exec (.op107E o) s = .next u → exec (.op87E p) u = .next t →
    ym = modPart s.inst (s.mem.read p.y.toNat) →
    (f = s.inst.code 140 ∨ f = s.inst.code 141 → t.w = u.w) ∧
    (f ≠ s.inst.code 140 → f ≠ s.inst.code 141 →
      p.x.toNat + ym.toNat < 2 ^ s.inst.addrBits → t.w.toNat = p.x.toNat + ym.toNat)

/-- 23E with X1 and X4 both 1 is refused; otherwise it sets and resets the indicators its action
bits name, both where it leaves (X5 = 1) and where it goes on (X5 = 0), when nothing else changes
and Y is not read (R81; log 22). -/
def Obligations.IndicatorsAct : Prop :=
  ∀ (o : Operands) (s : State),
    (o.x.getLsbD 1 = true → o.x.getLsbD 4 = true → exec (.op23E o) s = .refused .setAndReset) ∧
    (¬ (o.x.getLsbD 1 = true ∧ o.x.getLsbD 4 = true) →
      (o.x.getLsbD 5 = false →
        exec (.op23E o) s = .next { s with pc := s.pc + 1, ind := indicated o.x s.ind }) ∧
      (o.x.getLsbD 5 = true → InStore s o.y.toNat →
        ∃ t, exec (.op23E o) s = .next t ∧ t.ind = indicated o.x s.ind))

/-- 23E with X5 = 1 acts on the indicators and leaves Extracode: the flip-flop is reset, OVR is the
sign bit of y, no entry is recorded any more, the outcome AbandonedBy23E stands, and nothing else
changes before Abandon, which LeavingGoesOn says (R82; log 23); if y is outside the store it faults
instead. With X5 = 0 it goes on to the next order, y unread. -/
def Obligations.AbandonLeavesExtracode : Prop :=
  ∀ (o : Operands) (s : State), ¬ (o.x.getLsbD 1 = true ∧ o.x.getLsbD 4 = true) →
    (o.x.getLsbD 5 = true → InStore s o.y.toNat → exec (.op23E o) s = .next { s with
      ind := indicated o.x s.ind, xcFF := false, ovr := (s.mem.read o.y.toNat).getLsbD 47,
      entryF := none, leaving := some .abandonedBy23E }) ∧
    (o.x.getLsbD 5 = true → ¬ InStore s o.y.toNat →
      exec (.op23E o) s = .fault (.storeBound o.y.toNat)) ∧
    (o.x.getLsbD 5 = false → ∃ t, exec (.op23E o) s = .next t ∧
      t = { s with ind := t.ind, pc := s.pc + 1 })

/-- 107E: W is Y itself, mod 2^ADDR_BITS, and nothing else changes (log 43). -/
def Obligations.SetAbandonmentAddress : Prop :=
  ∀ (o : Operands) (s : State), s.inst.addrBits ≤ 24 →
    ∃ t, exec (.op107E o) s = .next t ∧ t.w.toNat = o.y.toNat % 2 ^ s.inst.addrBits ∧
      t = { s with w := t.w, pc := s.pc + 1 }

/-! ## 20E, 21E -/

/-- 20E of the lower reservation address: the six least significant bits of the address at the l.s.
end of x are lost, so the register holds it rounded down to a multiple of 64 (R173). -/
def Obligations.LoadLowerReservation : Prop :=
  ∀ (o : Operands) (s : State) (a : Nat), s.inst.addrBits ≤ 24 → InStore s o.x.toNat →
    a = (s.mem.read o.x.toNat).toNat % 2 ^ s.inst.addrBits →
    o.y.extractLsb' 0 4 = 0#4 → o.y.extractLsb' 4 2 = 0#2 →
    ∃ t, exec (.op20E o) s = .next t ∧ t.res.lower.toNat = 64 * (a / 64) ∧
      t = { s with pc := s.pc + 1, res := { s.res with lower := t.res.lower } }

/-- 20E of any other register: the upper reservation address comes with the strong/weak flip-flop
from bit 45; of lockout tester t the register that Y[5:4] selects is loaded, and an upper address
puts the tester into action. Nothing else changes (41_lockout_20E_21E_125E_127E.md, 20E; that Y[5]
is the first bit of the selector is the spec's inference, log 29). -/
def Obligations.LoadTesterRegister : Prop :=
  ∀ (o : Operands) (s : State) (xv : Word) (a : Addr), s.inst.addrBits ≤ 24 →
    InStore s o.x.toNat → xv = s.mem.read o.x.toNat →
    a = BitVec.ofNat 24 (xv.toNat % 2 ^ s.inst.addrBits) →
    (o.y.extractLsb' 0 4 = 0#4 → o.y.extractLsb' 4 2 = 1#2 → exec (.op20E o) s = .next { s with
      pc := s.pc + 1, res := { lower := s.res.lower, upper := a, sw := xv.getLsbD 45 } }) ∧
    ∀ t : Fin 7, (o.y.extractLsb' 0 4).toNat = t.val + 1 →
      (o.y.extractLsb' 4 2 = 0#2 → exec (.op20E o) s = .next { s with
        pc := s.pc + 1, lockouts := s.lockouts.set t { s.lockouts[t] with lower := a } }) ∧
      (o.y.extractLsb' 4 2 = 1#2 → exec (.op20E o) s = .next { s with
        pc := s.pc + 1,
        lockouts := s.lockouts.set t { s.lockouts[t] with upper := a, active := true } }) ∧
      (o.y.extractLsb' 4 2 = 2#2 → s.inst.hasCurrent.getLsbD t.val = true →
        exec (.op20E o) s = .next { s with
          pc := s.pc + 1, lockouts := s.lockouts.set t { s.lockouts[t] with current := a } }) ∧
      (o.y.extractLsb' 4 2 = 3#2 → exec (.op20E o) s = .next { s with
        pc := s.pc + 1,
        lockouts := s.lockouts.set t { s.lockouts[t] with sw := xv.getLsbD 0 } })

/-- Selections that B50 does not describe are refused, by 21E at once and by 20E once x has been
read (log 28). -/
def Obligations.UndescribedSelectionsRefused : Prop :=
  ∀ (o : Operands) (s : State) (t : Nat) (r : Refusal),
    t = (o.y.extractLsb' 0 4).toNat →
    (8 ≤ t ∧ r = .testerNumber t ∨
     t = 0 ∧ o.y.extractLsb' 4 2 = 2#2 ∧ r = .noCurrentAddress 0 ∨
     t = 0 ∧ o.y.extractLsb' 4 2 = 3#2 ∧ r = .resStrongWeakSelector ∨
     1 ≤ t ∧ t ≤ 7 ∧ o.y.extractLsb' 4 2 = 2#2 ∧ s.inst.hasCurrent.getLsbD (t - 1) = false ∧
       r = .noCurrentAddress t) →
    exec (.op21E o) s = .refused r ∧
    (InStore s o.x.toNat → exec (.op20E o) s = .refused r)

/-- 21E completes for every described selection: the register read back stands in the bits of x that
20E loads it from, a lockout tester goes out of action exactly if the bit of Y is 0, no tester
register changes, and no other word does (log 30, log 31). -/
def Obligations.ReadBackRegister : Prop :=
  ∀ (o : Operands) (s : State) (r : TesterRegister), s.mem.wf = true → s.inst.addrBits ≤ 24 →
    InStore s o.x.toNat → selectRegister s.inst o.y = .ok r →
    ∃ t v, exec (.op21E o) s = .next t ∧ v = t.mem.read o.x.toNat ∧
      ((∀ u, r ≠ .lkSW u) → v.toNat % 2 ^ s.inst.addrBits =
        (registerAddr s r).toNat % 2 ^ s.inst.addrBits) ∧
      (∀ u, r = .lkSW u → v.getLsbD 0 = (s.lockout u).sw) ∧
      (r = .resUpper → v.getLsbD 45 = s.res.sw) ∧
      (∀ u : Fin 7, t.lockout u = { s.lockout u with
        active := (s.lockout u).active &&
          !(decide (testerOf r = some u) && !o.y.getLsbD (outBitNumber s.inst)) }) ∧
      t = { s with mem := t.mem, pc := s.pc + 1, lockouts := t.lockouts, draws := t.draws } ∧
      SameWordsBut [o.x.toNat] s t

/-- What 20E has loaded, 21E reads back: after a 20E and a 21E with the same selector, the word read
back and the word loaded agree in the address, but for the six bits a lower reservation address
loses (log 31). -/
def Obligations.LoadThenReadBack : Prop :=
  ∀ (o p : Operands) (s u t : State) (r : TesterRegister), s.mem.wf = true →
    s.inst.addrBits ≤ 24 → 6 ≤ s.inst.addrBits → p.y = o.y → selectRegister s.inst o.y = .ok r →
    (∀ k, r ≠ .lkSW k) → exec (.op20E o) s = .next u → exec (.op21E p) u = .next t →
    (t.mem.read p.x.toNat).toNat % 2 ^ s.inst.addrBits =
      if r = .resLower then 64 * ((s.mem.read o.x.toNat).toNat % 2 ^ s.inst.addrBits / 64)
      else (s.mem.read o.x.toNat).toNat % 2 ^ s.inst.addrBits

/-! ## 125E, 127E -/

/-- LockoutFailure, which the model computes from the ends of the ranges, holds exactly if some
address of the region is locked out by a tester that applies (R95, R96; that a tester out of action
locks nothing out is the spec's reading, log 32; log 33). -/
def Obligations.LockoutFailureMeans : Prop :=
  ∀ (s : State) (kind : TestKind) (lo hi : Nat),
    lockoutFailure s kind lo hi = true ↔
      ∃ (t : Fin 7) (a : Nat), lo ≤ a ∧ a ≤ hi ∧ lockedOut (s.lockout t) a = true ∧
        appliesTo s.inst kind (s.lockout t).sw = true

/-- ReservationFailure of a region that is not empty holds exactly if some address of it is not
permitted or is denied (R95, R96; log 33). -/
def Obligations.ReservationFailureMeans : Prop :=
  ∀ (s : State) (kind : TestKind) (lo hi : Nat), lo ≤ hi →
    (reservationFailure s kind lo hi = true ↔
      ∃ a : Nat, lo ≤ a ∧ a ≤ hi ∧
        (permitted s a = false ∨ resDenies s.inst kind s.res.sw a = true))

/-- 125E and 127E complete on a region whose ends share their top halves and are in order, and put
into z: 0 if there is no failure, bit 47 alone after a reservation failure, and bit 47 with the
address of a locked-out word of the region after a lockout failure. No tester and no other word
changes (log 34). -/
def Obligations.RegionTests : Prop :=
  ∀ (o : Operands) (s : State) (z : Field15) (lo hi : Nat) (i : Instr) (kind : TestKind),
    s.mem.wf = true →
    (i = .op125E o ∧ kind = .strong ∨ i = .op127E o ∧ kind = .weak) → o.z = some z →
    InStore s o.x.toNat → InStore s o.y.toNat → InStore s z.toNat →
    (s.mem.read o.x.toNat).extractLsb' 24 24 = (s.mem.read o.y.toNat).extractLsb' 24 24 →
    lo = (s.mem.read o.x.toNat).toNat % 2 ^ 24 → hi = (s.mem.read o.y.toNat).toNat % 2 ^ 24 →
    lo ≤ hi →
    ∃ t, exec i s = .next t ∧ NextWithDraws s t ∧ SameWordsBut [z.toNat] s t ∧
      (lockoutFailure s kind lo hi = false → reservationFailure s kind lo hi = false →
        t.mem.read z.toNat = 0#48) ∧
      (lockoutFailure s kind lo hi = false → reservationFailure s kind lo hi = true →
        (t.mem.read z.toNat).toNat = 2 ^ 47) ∧
      (lockoutFailure s kind lo hi = true →
        ∃ a, (t.mem.read z.toNat).toNat = 2 ^ 47 + a ∧ lo ≤ a ∧ a ≤ hi ∧
          reportable s kind a = true)

/-- 125E and 127E are refused where the top halves differ, and where x lies above y (log 34). -/
def Obligations.RegionTestsRefused : Prop :=
  ∀ (o : Operands) (s : State) (z : Field15) (xv yv : Word) (i : Instr),
    (i = .op125E o ∨ i = .op127E o) → o.z = some z →
    InStore s o.x.toNat → InStore s o.y.toNat →
    xv = s.mem.read o.x.toNat → yv = s.mem.read o.y.toNat →
    (xv.extractLsb' 24 24 ≠ yv.extractLsb' 24 24 → exec i s = .refused .regionTopHalves) ∧
    (xv.extractLsb' 24 24 = yv.extractLsb' 24 24 → yv.toNat % 2 ^ 24 < xv.toNat % 2 ^ 24 →
      exec i s = .refused .emptyRegion)

/-! ## 22E -/

/-- 22E completes: the General Request with channel 8 forced, the reply into the two lower quarters
of DEST (Z, or X in the 2-address form), and in the 3-address form the control dollop; a single
dollop is repeated. Only DEST, the bus history and the waiting replies change (R100, R102; the
reply's place and the order of the events are the spec's choice, log 35). -/
def Obligations.PeripheralExchange : Prop :=
  ∀ (o : Operands) (s : State) (dest : Nat), s.mem.wf = true →
    dest = (match o.z with | some z => z.toNat | none => o.x.toNat) → InStore s dest →
    ∃ t c d1 d2, exec (.op22E o) s = .next t ∧ c.toNat = 256 + o.x.toNat % 256 ∧
      t.bus = s.bus ++ [.generalRequest c, .busIn d1 d2] ++
        (match o.z with
          | some _ => [.controlDollop (o.y.extractLsb' 0 12)]
          | none => []) ∧
      (t.mem.read dest).extractLsb' 0 12 = d1 ∧ (t.mem.read dest).extractLsb' 12 12 = d2 ∧
      (∀ d rest, s.replies = .one d :: rest → d1 = d ∧ d2 = d) ∧
      (∀ d d' rest, s.replies = .two d d' :: rest → d1 = d ∧ d2 = d') ∧
      t = { s with mem := t.mem, pc := s.pc + 1, bus := t.bus, replies := s.replies.tail,
                   draws := t.draws } ∧
      SameWordsBut [dest] s t

/-! ## 24E, 25E, 26E -/

/-- 24E completes: character i of DEST is the xi-th character of the table as it was before the
order, characters numbered from 0 through the eight words; nothing else changes (R105; the numbering
is the spec's choice, log 36). -/
def Obligations.CharacterConversion : Prop :=
  ∀ (o : Operands) (s : State) (dest : Nat), s.mem.wf = true →
    dest = (match o.z with | some z => z.toNat | none => o.x.toNat) →
    InStore s o.x.toNat → o.y.toNat + 8 ≤ s.inst.storeSize → InStore s dest →
    ∃ t, exec (.op24E o) s = .next t ∧ NextWithStore s t ∧ SameWordsBut [dest] s t ∧
      ∀ i, i < 8 → charOf (t.mem.read dest) i =
        charAt s.mem (8 * o.y.toNat + (charOf (s.mem.read o.x.toNat) i).toNat)

/-- 25E completes: bit 47 - (24*(r mod 2) + k) of word Y + 2*(r div 2) is bit 6k + r, from the m.s.
end, of the three source words as they were before; nothing else changes (log 37). -/
def Obligations.ColumnsToRows : Prop :=
  ∀ (o : Operands) (s : State), s.mem.wf = true → o.x.toNat + 3 ≤ s.inst.storeSize →
    o.y.toNat + 4 < s.inst.storeSize →
    ∃ t, exec (.op25E o) s = .next t ∧ NextWithStore s t ∧
      SameWordsBut [o.y.toNat, o.y.toNat + 2, o.y.toNat + 4] s t ∧
      ∀ r k, r < 6 → k < 24 →
        (t.mem.read (o.y.toNat + 2 * (r / 2))).getLsbD (47 - (24 * (r % 2) + k)) =
          (s.mem.read (o.x.toNat + (6 * k + r) / 48)).getLsbD (47 - (6 * k + r) % 48)

/-- 26E completes: Y and Y+1 receive what ColRow2 gives of X and X+1 as they were before, which
under the candidate is the exchange of the inner halves; nothing else changes (log 38). -/
def Obligations.RowsJoined : Prop :=
  ∀ (o : Operands) (s : State) (a b : Word), s.mem.wf = true → o.x.toNat + 2 ≤ s.inst.storeSize →
    o.y.toNat + 1 < s.inst.storeSize →
    a = s.mem.read o.x.toNat → b = s.mem.read (o.x.toNat + 1) →
    ∃ t, exec (.op26E o) s = .next t ∧ NextWithStore s t ∧
      SameWordsBut [o.y.toNat, o.y.toNat + 1] s t ∧
      (t.mem.read o.y.toNat, t.mem.read (o.y.toNat + 1)) = colRow2 s.inst a b ∧
      (s.inst.colRow2 = .candidate →
        t.mem.read o.y.toNat = a.extractLsb' 24 24 ++ b.extractLsb' 24 24 ∧
        t.mem.read (o.y.toNat + 1) = a.extractLsb' 0 24 ++ b.extractLsb' 0 24)

/-! ## 27E, 140E -/

/-- 27E completes whenever it meets an NL or PT within MAX27 characters and all it reads and writes
lies in the store, a destination that overlaps the source included: the destination field receives
the plain characters in their correct positions, no tabulate pair, and z the terminating pair; no
other word changes (items 1 to 4 of R113 by the skeleton of R114, log 39). -/
def Obligations.PrinterPreparation : Prop :=
  ∀ (o : Operands) (s : State) (z : Field15) (ws : List (Nat × Character)) (e d : Nat),
    s.mem.wf = true → o.z = some z → InStore s z.toNat →
    Scanned s.inst s.mem o e d ws → e < s.inst.max27 → Ends s.inst (sourceChar s.mem o ws e) →
    InStore s (o.y.toNat + 1 + (e + 1) / 8) → (∀ p ∈ ws, InStore s (o.x.toNat + p.1 / 8)) →
    ∃ t, exec (.op27E o) s = .next t ∧ NextWithDraws s t ∧
      (t.mem.read z.toNat).extractLsb' 6 6 = sourceChar s.mem o ws e ∧
      (t.mem.read z.toNat).extractLsb' 0 6 = sourceChar s.mem o ws (e + 1) ∧
      ∀ q, q / 8 ≠ z.toNat → charAt t.mem q = charAfter s.mem o.x.toNat ws q

/-- Where 27E stops: it is refused after MAX27 characters with no NL or PT, and it faults at the
first source character, second character of a pair, place to fill or copy to, or result word that is
outside the store (R114, log 39; log 12). -/
def Obligations.PrinterPreparationStops : Prop :=
  ∀ (o : Operands) (s : State) (z : Field15) (ws : List (Nat × Character)) (e d : Nat)
    (ch : Character), s.mem.wf = true → o.z = some z → Scanned s.inst s.mem o e d ws →
    (∀ i, i < e → InStore s (o.y.toNat + 1 + i / 8)) →
    (∀ p ∈ ws, InStore s (o.x.toNat + p.1 / 8)) → ch = sourceChar s.mem o ws e →
    (s.inst.max27 ≤ e → exec (.op27E o) s = .refused .unterminated27E) ∧
    (e < s.inst.max27 → ¬ InStore s (o.y.toNat + 1 + e / 8) →
      exec (.op27E o) s = .fault (.storeBound (o.y.toNat + 1 + e / 8))) ∧
    (e < s.inst.max27 → InStore s (o.y.toNat + 1 + e / 8) →
      (Ends s.inst ch ∨ ch = s.inst.tabCode → ¬ InStore s (o.y.toNat + 1 + (e + 1) / 8) →
        exec (.op27E o) s = .fault (.storeBound (o.y.toNat + 1 + (e + 1) / 8))) ∧
      (Ends s.inst ch → InStore s (o.y.toNat + 1 + (e + 1) / 8) → ¬ InStore s z.toNat →
        exec (.op27E o) s = .fault (.storeBound z.toNat)) ∧
      (¬ Ends s.inst ch → ch ≠ s.inst.tabCode → ¬ InStore s (o.x.toNat + d / 8) →
        exec (.op27E o) s = .fault (.storeBound (o.x.toNat + d / 8))) ∧
      (¬ Ends s.inst ch → ch = s.inst.tabCode → InStore s (o.y.toNat + 1 + (e + 1) / 8) →
        ∀ q, s.inst.fill27 ≠ none → d ≤ q →
          q < tabTarget s.inst (sourceChar s.mem o ws (e + 1)) d →
          (∀ p, d ≤ p → p < q → InStore s (o.x.toNat + p / 8)) →
          ¬ InStore s (o.x.toNat + q / 8) →
          exec (.op27E o) s = .fault (.storeBound (o.x.toNat + q / 8))))

/-- 140E completes: the insertion bit shifted down i places is ORed into word Y + 3k of the i-th
character's wheel place k, nothing is cleared, and z ends shifted down 8 places; nothing else
changes (the spec's reconstruction, log 40). -/
def Obligations.LineImage : Prop :=
  ∀ (o : Operands) (s : State) (z : Field15) (xv zv : Word), s.mem.wf = true → o.z = some z →
    InStore s o.x.toNat → InStore s z.toNat → xv = s.mem.read o.x.toNat →
    zv = s.mem.read z.toNat →
    (∀ i, i < 8 → InStore s (o.y.toNat + 3 * wheelIndex s.inst (charOf xv i))) →
    ∃ t, exec (.op140E o) s = .next t ∧ NextWithStore s t ∧ t.mem.read z.toNat = zv >>> 8 ∧
      ∀ a b, a ≠ z.toNat → b < 48 →
        ((t.mem.read a).getLsbD b = true ↔ (s.mem.read a).getLsbD b = true ∨
          ∃ i, i < 8 ∧ o.y.toNat + 3 * wheelIndex s.inst (charOf xv i) = a ∧
            zv.getLsbD (b + i) = true)

/-! ## 102E, 103E -/

/-- 102E completes: in z, column j with two or more holes under the mask has v cleared and the m.s.
bit of u 1, any other column has that bit 0; a column with none under the mask and only 10 or 11
holes has the v that the same card with the column blank has, their contribution not being formed,
and the v of any other column is CardConv1's; OVR is set exactly if some column has two or more
holes under the mask, or none and only 10 or 11 holes, and is never cleared; nothing else changes
(R122; log 41). -/
def Obligations.CardFirstConversion : Prop :=
  ∀ (o : Operands) (s : State) (z : Field15) (xv yv : Word) (n : Nat → Nat),
    s.mem.wf = true → o.z = some z → InStore s o.x.toNat → InStore s o.y.toNat →
    InStore s z.toNat → xv = s.mem.read o.x.toNat → yv = s.mem.read o.y.toNat →
    (∀ j, n j = (List.range 12).countP fun b =>
      (column xv j).getLsbD b && (column yv 0).getLsbD b) →
    ∃ t, exec (.op102E o) s = .next t ∧
      t = { s with mem := t.mem, pc := s.pc + 1, ovr := t.ovr } ∧ SameWordsBut [z.toNat] s t ∧
      (∀ j, j < 4 → 2 ≤ n j → charOf (t.mem.read z.toNat) j = 0#6) ∧
      (∀ j xb, j < 4 → n j = 0 → column xv j ≠ 0#12 →
        column xv j &&& ~~~s.inst.tenEleven = 0#12 → column xb j = 0#12 →
        (∀ k, k < 4 → k ≠ j → column xb k = column xv k) →
        charOf (t.mem.read z.toNat) j = charOf (Config.cardConv1 xb yv) j) ∧
      (∀ j, j < 4 → n j < 2 →
        (n j = 0 → column xv j ≠ 0#12 → column xv j &&& ~~~s.inst.tenEleven ≠ 0#12) →
        charOf (t.mem.read z.toNat) j = charOf (Config.cardConv1 xv yv) j) ∧
      (∀ j, j < 4 → ((t.mem.read z.toNat).getLsbD (23 - 6 * j) = true ↔ 2 ≤ n j)) ∧
      (t.ovr = true ↔ s.ovr = true ∨ ∃ j, j < 4 ∧ (2 ≤ n j ∨
        n j = 0 ∧ column xv j ≠ 0#12 ∧ column xv j &&& ~~~s.inst.tenEleven = 0#12))

/-- 103E completes: z becomes CardCheck2 of x, y and z with its halves exchanged; OVR and all else
are unchanged (log 41). -/
def Obligations.CardSecondConversion : Prop :=
  ∀ (o : Operands) (s : State) (z : Field15) (mixed : Word), s.mem.wf = true → o.z = some z →
    InStore s o.x.toNat → InStore s o.y.toNat → InStore s z.toNat →
    mixed = Config.cardCheck2 (s.mem.read o.x.toNat) (s.mem.read o.y.toNat)
      (s.mem.read z.toNat) →
    ∃ t, exec (.op103E o) s = .next t ∧ NextWithStore s t ∧ SameWordsBut [z.toNat] s t ∧
      (t.mem.read z.toNat).extractLsb' 24 24 = mixed.extractLsb' 0 24 ∧
      (t.mem.read z.toNat).extractLsb' 0 24 = mixed.extractLsb' 24 24

/-! ## 105E, 106E -/

/-- 105E completes on fields inside the store: z characters are moved one at a time, overlapping
fields included, the rest of the last destination word is made zero, and nothing else changes; a
count of zero changes nothing (R128; log 42). -/
def Obligations.CharactersTransferred : Prop :=
  ∀ (o : Operands) (s : State) (z : Field15) (n src dst : Nat), s.mem.wf = true →
    o.z = some z → InStore s o.x.toNat → InStore s o.y.toNat → InStore s z.toNat →
    n = (s.mem.read z.toNat).toNat → n < 2 ^ 47 →
    src = charIndex s.inst (s.mem.read o.x.toNat) →
    dst = charIndex s.inst (s.mem.read o.y.toNat) →
    src + n ≤ 8 * s.inst.storeSize → dst + n ≤ 8 * s.inst.storeSize →
    ∃ t, exec (.op105E o) s = .next t ∧ NextWithStore s t ∧
      (n = 0 → t.mem = s.mem) ∧
      (0 < n → Transferred s t src dst n ∧
        ∀ a, a < dst / 8 ∨ (dst + n - 1) / 8 < a → t.mem.read a = s.mem.read a)

/-- 106E completes if the characters it moves lie inside the store, however large the count: it
moves characters as 105E does but ends with the first NL moved, and writes the number moved to z
last (R129; log 42). -/
def Obligations.CharactersTransferredToNL : Prop :=
  ∀ (o : Operands) (s : State) (z : Field15) (n src dst moved : Nat), s.mem.wf = true →
    o.z = some z → InStore s o.x.toNat → InStore s o.y.toNat → InStore s z.toNat →
    n = (s.mem.read z.toNat).toNat → n < 2 ^ 47 →
    src = charIndex s.inst (s.mem.read o.x.toNat) →
    dst = charIndex s.inst (s.mem.read o.y.toNat) →
    moved ≤ n → (∀ k, k + 1 < moved → movedChar s.mem src dst k ≠ s.inst.nlCode) →
    (moved = n ∨ 0 < moved ∧ movedChar s.mem src dst (moved - 1) = s.inst.nlCode) →
    src + moved ≤ 8 * s.inst.storeSize → dst + moved ≤ 8 * s.inst.storeSize →
    ∃ t u, exec (.op106E o) s = .next t ∧ NextWithStore s t ∧
      (t.mem.read z.toNat).toNat = moved ∧
      (∀ a, a ≠ z.toNat → t.mem.read a = u.mem.read a) ∧
      (moved = 0 → u = s) ∧
      (0 < moved → Transferred s u src dst moved ∧
        ∀ a, a < dst / 8 ∨ (dst + moved - 1) / 8 < a → u.mem.read a = s.mem.read a)

/-- Where 105E and 106E stop once their operands are read: a count with bit 47 set is refused, and
the first character to move whose place in the source, or else in the destination, is outside the
store is the fault StoreBound, if in 106E no NL has ended the transfer before it (log 12, log 42).
-/
def Obligations.CharacterTransfersStop : Prop :=
  ∀ (o : Operands) (s : State) (z : Field15) (n src dst : Nat), s.mem.wf = true →
    o.z = some z → InStore s o.x.toNat → InStore s o.y.toNat → InStore s z.toNat →
    n = (s.mem.read z.toNat).toNat → src = charIndex s.inst (s.mem.read o.x.toNat) →
    dst = charIndex s.inst (s.mem.read o.y.toNat) →
    (2 ^ 47 ≤ n →
      exec (.op105E o) s = .refused .negativeCount ∧
      exec (.op106E o) s = .refused .negativeCount) ∧
    (n < 2 ^ 47 → ∀ k, k < n →
      (∀ j, j < k → InStore s ((src + j) / 8) ∧ InStore s ((dst + j) / 8)) →
      ∀ i, (i = .op105E o ∨
          i = .op106E o ∧ ∀ j, j < k → movedChar s.mem src dst j ≠ s.inst.nlCode) →
        (¬ InStore s ((src + k) / 8) → exec i s = .fault (.storeBound ((src + k) / 8))) ∧
        (InStore s ((src + k) / 8) → ¬ InStore s ((dst + k) / 8) →
          exec i s = .fault (.storeBound ((dst + k) / 8))))

/-- The 2-address forms of the eight orders that need Z are refused by name (log 15). -/
def Obligations.TwoAddressFormsRefused : Prop :=
  ∀ (o : Operands) (s : State), o.z = none →
    ∀ p ∈ [(Instr.op27E o, 27), (.op102E o, 102), (.op103E o, 103), (.op105E o, 105),
           (.op106E o, 106), (.op125E o, 125), (.op127E o, 127), (.op140E o, 140)],
      exec p.1 s = .refused (.twoAddressForm p.2)

/-- An operand, table, result or image word of 20E, 21E, 22E, 24E, 25E, 26E, 102E, 103E, 105E, 106E,
125E, 127E or 140E that is not in the store, in whole or in part, is the fault StoreBound with the
address its access begins at; the accesses of an order come in the order of its rule (R44; the
address and the order are log 12). The other accesses are those of 87E (JumpNeedsRecordedEntry), 23E
(AbandonLeavesExtracode), 27E (PrinterPreparationStops) and the fields of 105E and 106E
(CharacterTransfersStop). -/
def Obligations.OperandsOutsideStoreFault : Prop :=
  ∀ (o : Operands) (s : State) (x y dest size : Nat), x = o.x.toNat → y = o.y.toNat →
    dest = (match o.z with | some z => z.toNat | none => o.x.toNat) → size = s.inst.storeSize →
    (size ≤ x → exec (.op20E o) s = .fault (.storeBound x)) ∧
    (size ≤ x → (∃ r, selectRegister s.inst o.y = .ok r) →
      exec (.op21E o) s = .fault (.storeBound x)) ∧
    (size ≤ dest → exec (.op22E o) s = .fault (.storeBound dest)) ∧
    ((size ≤ x → exec (.op24E o) s = .fault (.storeBound x)) ∧
      (x < size → size < y + 8 → exec (.op24E o) s = .fault (.storeBound y)) ∧
      (x < size → y + 8 ≤ size → size ≤ dest → exec (.op24E o) s = .fault (.storeBound dest))) ∧
    ((size < x + 3 → exec (.op25E o) s = .fault (.storeBound x)) ∧
      (x + 3 ≤ size → size ≤ y → exec (.op25E o) s = .fault (.storeBound y)) ∧
      (x + 3 ≤ size → y < size → size ≤ y + 2 →
        exec (.op25E o) s = .fault (.storeBound (y + 2))) ∧
      (x + 3 ≤ size → y + 2 < size → size ≤ y + 4 →
        exec (.op25E o) s = .fault (.storeBound (y + 4)))) ∧
    ((size < x + 2 → exec (.op26E o) s = .fault (.storeBound x)) ∧
      (x + 2 ≤ size → size ≤ y → exec (.op26E o) s = .fault (.storeBound y)) ∧
      (x + 2 ≤ size → y < size → size ≤ y + 1 →
        exec (.op26E o) s = .fault (.storeBound (y + 1)))) ∧
    ∀ z : Field15, o.z = some z →
      (size ≤ x → ∀ i ∈ [Instr.op102E o, .op103E o, .op105E o, .op106E o, .op125E o, .op127E o,
          .op140E o], exec i s = .fault (.storeBound x)) ∧
      (x < size → size ≤ y → ∀ i ∈ [Instr.op102E o, .op103E o, .op105E o, .op106E o, .op125E o,
          .op127E o], exec i s = .fault (.storeBound y)) ∧
      (x < size → y < size → size ≤ z.toNat → ∀ i ∈ [Instr.op102E o, .op103E o, .op105E o,
          .op106E o], exec i s = .fault (.storeBound z.toNat)) ∧
      (x < size → y < size → size ≤ z.toNat →
        (s.mem.read x).extractLsb' 24 24 = (s.mem.read y).extractLsb' 24 24 →
        (s.mem.read x).toNat % 2 ^ 24 ≤ (s.mem.read y).toNat % 2 ^ 24 →
        ∀ i ∈ [Instr.op125E o, .op127E o], exec i s = .fault (.storeBound z.toNat)) ∧
      (x < size → size ≤ z.toNat → exec (.op140E o) s = .fault (.storeBound z.toNat)) ∧
      (x < size → z.toNat < size → ∀ (i : Nat) (image : Nat → Nat), i < 8 →
        (∀ j, image j = y + 3 * wheelIndex s.inst (charOf (s.mem.read x) j)) →
        (∀ j, j < i → image j < size) → size ≤ image i →
        exec (.op140E o) s = .fault (.storeBound (image i)))

/-! ## Entry to Extracode -/

/-- 102, 103, 125 and 126 always enter Extracode outside XC_ACTIVE (R141). -/
def Obligations.WholeOrdersEnter : Prop :=
  ∀ (o : Operands) (s : State), s.mem.wf = true → s.xcActive = false → InStore s 516 →
    ∀ p ∈ [(Instr.op102 o, 102), (.op103 o, 103), (.op125 o, 125), (.op126 o, 126)],
      ∃ t, exec p.1 s = .next t ∧ Entered s t

/-- 140, 141, 142, 154 and 155 always enter Extracode outside XC_ACTIVE, each order of a pair on its
own (log 27). -/
def Obligations.PairOrdersEnter : Prop :=
  ∀ (o : Operands) (s : State), s.mem.wf = true → s.xcActive = false → InStore s 516 →
    ∀ p ∈ [(Instr.op140 o, 140), (.op141 o, 141), (.op142 o, 142), (.op154 o, 154),
           (.op155 o, 155)],
      ∃ t, exec p.1 s = .next t ∧ Entered s t

/-- The divisions 40 to 45 enter Extracode outside XC_ACTIVE when the quotient appears to be out of
range, and are refused otherwise, their normal effect being in the Orion manual only (R143; the
predicate is open, log 26; the refusal is log 25; that entry is precise, log 18). -/
def Obligations.DivisionsEnter : Prop :=
  ∀ (o : Operands) (s : State), s.mem.wf = true → CodesDistinct s.inst.code →
    s.xcActive = false → InStore s 516 →
    ∀ p ∈ [(Instr.op40 o, 40), (.op41 o, 41), (.op42 o, 42), (.op43 o, 43), (.op44 o, 44),
           (.op45 o, 45)],
      (quotientAppearsOutOfRange ⟨s.inst.code p.2, o⟩ s = true →
        ∃ t, exec p.1 s = .next t ∧ Entered s t) ∧
      (quotientAppearsOutOfRange ⟨s.inst.code p.2, o⟩ s = false →
        exec p.1 s = .refused (.normalOrder (s.inst.code p.2)))

/-- 101 and 95 enter Extracode outside XC_ACTIVE when their operands require help; otherwise they
are refused, their normal effect being in the Orion manual only (R144; the predicate is open, log
26; the refusal is log 25; that entry is precise, log 18). -/
def Obligations.HelpedOrdersEnter : Prop :=
  ∀ (o : Operands) (s : State), s.mem.wf = true → CodesDistinct s.inst.code →
    s.xcActive = false → InStore s 516 →
    ∀ p ∈ [(Instr.op101 o, 101), (.op95 o, 95)],
      (needsExtracodeHelp ⟨s.inst.code p.2, o⟩ s = true →
        ∃ t, exec p.1 s = .next t ∧ Entered s t) ∧
      (needsExtracodeHelp ⟨s.inst.code p.2, o⟩ s = false →
        exec p.1 s = .refused (.normalOrder (s.inst.code p.2)))

/-- 156 enters Extracode outside XC_ACTIVE when in monitoring or engineers mode; otherwise it is
refused, its normal effect being in the Orion manual only (R153; the refusal is log 25; that entry
is precise, log 18). -/
def Obligations.MonitoredOrderEnters : Prop :=
  ∀ (o : Operands) (s : State), s.mem.wf = true → CodesDistinct s.inst.code →
    s.xcActive = false → InStore s 516 →
    ((s.opt.monitoringMode = true ∨ s.opt.engineersMode = true) →
      ∃ t, exec (.op156 o) s = .next t ∧ Entered s t) ∧
    (s.opt.monitoringMode = false → s.opt.engineersMode = false →
      exec (.op156 o) s = .refused (.normalOrder (s.inst.code 156)))

/-- What an entry puts into words 512, 514, 515 and 516 (R146, R149, R150, R151): X and the mode; Y,
unrounded and monitor-on-overflow; the result address, monitor-on-floating-overflow and the second
of a pair; J and OVR. All are of the state before; with zero fill the other bits are 0. -/
def Obligations.EntryInformation : Prop :=
  ∀ (o : Operands) (s t : State) (i : Instr) (p : Nat), s.mem.wf = true → s.inst.jBits ≤ 47 →
    CodesDistinct s.inst.code → (i, p) ∈ enteringOrders o → exec i s = .next t →
    ((t.mem.read 512).extractLsb' 0 15 = o.x ∧
      (t.mem.read 512).getLsbD 47 = (s.opt.monitoringMode || s.opt.engineersMode) ∧
      (s.inst.entryFill = .zero → (t.mem.read 512).extractLsb' 15 32 = 0#32)) ∧
    ((t.mem.read 514).extractLsb' 0 24 = o.y ∧
      (t.mem.read 514).getLsbD 47 = s.opt.fpUnrounded ∧
      (t.mem.read 514).getLsbD 46 = s.opt.monOnOvr ∧
      (s.inst.entryFill = .zero → (t.mem.read 514).extractLsb' 24 22 = 0#22)) ∧
    ((t.mem.read 515).extractLsb' 0 15 = (match o.z with | some z => z | none => o.x) ∧
      (t.mem.read 515).getLsbD 46 = s.opt.monOnFpOvr ∧
      (t.mem.read 515).getLsbD 47 = decide (p = 142 ∨ p = 154 ∨ p = 155) ∧
      (s.inst.entryFill = .zero → (t.mem.read 515).extractLsb' 15 31 = 0#31)) ∧
    ((t.mem.read 516).extractLsb' 0 s.inst.jBits = (linkValue s).setWidth s.inst.jBits ∧
      (t.mem.read 516).getLsbD 47 = s.ovr ∧
      (s.inst.entryFill = .zero → ∀ b, s.inst.jBits ≤ b → b < 47 →
        (t.mem.read 516).getLsbD b = false))

/-- What an entry puts into word 513: the l.s. two F-bits in the two m.s. bits, the next four in the
four l.s. bits, the m.s. one in bit 28, and bit 23 for the 3-address form (the order inside each
group is the spec's choice, log 16; the F-bits of a printed function are the installation's, log 1).
-/
def Obligations.EntryFunctionWord : Prop :=
  ∀ (o : Operands) (s t : State) (i : Instr) (p : Nat), s.mem.wf = true →
    (i, p) ∈ enteringOrders o → exec i s = .next t →
    (t.mem.read 513).extractLsb' 46 2 = (s.inst.code p).extractLsb' 0 2 ∧
    (t.mem.read 513).extractLsb' 0 4 = (s.inst.code p).extractLsb' 2 4 ∧
    (t.mem.read 513).getLsbD 28 = (s.inst.code p).getLsbD 6 ∧
    (t.mem.read 513).getLsbD 23 = o.z.isSome ∧
    (s.inst.entryFill = .zero → (t.mem.read 513).extractLsb' 4 19 = 0#19 ∧
      (t.mem.read 513).extractLsb' 24 4 = 0#4 ∧ (t.mem.read 513).extractLsb' 29 17 = 0#17)

/-- An entry cause that holds while XC_ACTIVE is refused as a nested entry, as NORMAL and as the
entering order itself (log 24); every other NORMAL order is refused by its F-bits, for its
effect is in the Orion manual only (log 25). -/
def Obligations.NormalOrdersRefused : Prop :=
  ∀ (active : Bool) (f : Function7) (o : Operands) (s : State),
    (active = true → (entryCause ⟨f, o⟩ s).isSome = true →
      exec (.normal active f o) s = .refused .nestedEntry) ∧
    (active = false ∨ entryCause ⟨f, o⟩ s = none →
      exec (.normal active f o) s = .refused (.normalOrder f)) ∧
    (s.xcActive = true → ∀ p ∈ enteringOrders o,
      (entryCause ⟨s.inst.code p.2, o⟩ s).isSome = true →
      exec p.1 s = .refused .nestedEntry)

/-- An 87 right after an entry leaves W alone if the entry was by 140 or 141, and sets it to X + ym
if it was by any other order, the second of a pair included (log 20, log 21). -/
def Obligations.PairKeepsW : Prop :=
  ∀ (o q : Operands) (s u t : State) (i : Instr) (p : Nat), s.inst.addrBits ≤ 24 →
    CodesDistinct s.inst.code → (i, p) ∈ enteringOrders o → exec i s = .next u →
    exec (.op87E q) u = .next t →
    (p = 140 ∨ p = 141 → t.w = s.w) ∧
    (p ≠ 140 → p ≠ 141 → t.w.toNat =
      (q.x.toNat + (modPart s.inst (u.mem.read q.y.toNat)).toNat) % 2 ^ s.inst.addrBits)

/-- A 23E that leaves with Y = 516 right after an entry restores OVR to its value on entry, and
neither W nor J is touched (R82, R151). -/
def Obligations.AbandonRestoresOvr : Prop :=
  ∀ (o q : Operands) (s u t : State) (i : Instr) (p : Nat), s.mem.wf = true →
    (i, p) ∈ enteringOrders o → exec i s = .next u → q.x.getLsbD 5 = true → q.y = 516#24 →
    exec (.op23E q) u = .next t →
    t.ovr = s.ovr ∧ t.w = s.w ∧ t.j = s.j ∧ t.xcFF = false
end

