-- ==== Sys2Proof/Laws/Bits.lean ====
section
/-!
SUPPORT. The laws of bit fields, characters and addresses.
-/

namespace Sys2Proof.Machine

/-- Bit i of a word with a field replaced: the field's own bit inside it, the word's outside. -/
theorem getLsbD_putField {len : Nat} (w : Word) (lo : Nat) (v : BitVec len) (i : Nat)
    (hi : i < 48) : (putField w lo v).getLsbD i =
      if lo ≤ i ∧ i < lo + len then v.getLsbD (i - lo) else w.getLsbD i := by
  simp only [putField, BitVec.getLsbD_or, BitVec.getLsbD_and, BitVec.getLsbD_not,
    BitVec.getLsbD_shiftLeft, BitVec.getLsbD_setWidth, BitVec.getLsbD_allOnes, hi, decide_true,
    Bool.true_and]
  by_cases h1 : i < lo
  · simp [h1, Nat.not_le.mpr h1]
  · have hs : i - lo < 48 := by omega
    by_cases h2 : i - lo < len
    · have : i < lo + len := by omega
      simp [h1, h2, hs, this, Nat.not_lt.mp h1]
    · have hv : v.getLsbD (i - lo) = false := BitVec.getLsbD_of_ge _ _ (by omega)
      have : ¬ i < lo + len := by omega
      simp [h1, h2, hs, this, hv]

theorem getLsbD_putBit (w : Word) (n : Nat) (b : Bool) (i : Nat) (hi : i < 48) :
    (putBit w n b).getLsbD i = if i = n then b else w.getLsbD i := by
  rw [putBit, getLsbD_putField _ _ _ _ hi]
  by_cases h : i = n
  · subst h; simp
  · rw [if_neg (by omega), if_neg h]

theorem getLsbD_charOf (w : Word) {c : Nat} {i : Nat} (hi : i < 6) :
    (charOf w c).getLsbD i = w.getLsbD (42 - 6 * c + i) := by
  simp [charOf, hi]

/-- A word is its characters. -/
theorem eq_of_charOf_eq {v w : Word} (h : ∀ c, c < 8 → charOf v c = charOf w c) : v = w := by
  apply BitVec.eq_of_getLsbD_eq
  intro i hi
  have h' := congrArg (fun x => x.getLsbD (i % 6)) (h (7 - i / 6) (by omega))
  simp only [getLsbD_charOf _ (Nat.mod_lt i (by decide : 0 < 6))] at h'
  have e : 42 - 6 * (7 - i / 6) + i % 6 = i := by omega
  rwa [e] at h'

/-- Character c' of a word with character c replaced. -/
theorem charOf_setChar (w : Word) {c c' : Nat} (hc : c < 8) (hc' : c' < 8) (v : Character) :
    charOf (setChar w c v) c' = if c' = c then v else charOf w c' := by
  apply BitVec.eq_of_getLsbD_eq
  intro i hi
  rw [getLsbD_charOf _ hi, setChar, getLsbD_putField _ _ _ _ (by omega)]
  by_cases h : c' = c
  · subst h
    rw [if_pos (by omega), if_pos rfl]
    congr 1
    omega
  · rw [if_neg (by omega), if_neg h, getLsbD_charOf _ hi]

/-- Character c of a word given by its characters. -/
theorem charOf_wordOfChars (f : Nat → Character) {c : Nat} (hc : c < 8) :
    charOf (wordOfChars f) c = f c := by
  apply BitVec.eq_of_getLsbD_eq
  intro i hi
  rw [getLsbD_charOf _ hi]
  simp only [wordOfChars]
  have h : c = 0 ∨ c = 1 ∨ c = 2 ∨ c = 3 ∨ c = 4 ∨ c = 5 ∨ c = 6 ∨ c = 7 := by omega
  obtain h | h | h | h | h | h | h | h := h <;> subst h <;>
    simp only [BitVec.getLsbD_append] <;> repeat' (first
      | rfl
      | (rw [if_pos (by omega)])
      | (rw [if_neg (by omega)])
      | (congr 1; omega))

theorem charOf_zeroTail (w : Word) (c : Nat) {i : Nat} (hi : i < 8) :
    charOf (zeroTail w c) i = if i ≤ c then charOf w i else 0#6 :=
  charOf_wordOfChars _ hi

theorem wordOfBits_toNat_lt (f : Nat → Bool) (n : Nat) :
    (List.range n).foldl (fun acc p => 2 * acc + (f p).toNat) 0 < 2 ^ n := by
  induction n with
  | zero => simp
  | succ n ih =>
    rw [List.range_succ, List.foldl_append, List.foldl_cons, List.foldl_nil, Nat.pow_succ]
    have := Bool.toNat_le (f n)
    omega

theorem testBit_foldl_bits (f : Nat → Bool) (n i : Nat) (hi : i < n) :
    ((List.range n).foldl (fun acc p => 2 * acc + (f p).toNat) 0).testBit i = f (n - 1 - i) := by
  induction n generalizing i with
  | zero => omega
  | succ n ih =>
    rw [List.range_succ, List.foldl_append, List.foldl_cons, List.foldl_nil]
    cases i with
    | zero =>
      have h : n + 1 - 1 - 0 = n := by omega
      rw [h]
      cases f n <;> simp [Nat.testBit_zero, Nat.add_mod]
    | succ i =>
      have h : n + 1 - 1 - (i + 1) = n - 1 - i := by omega
      rw [h, ← ih i (by omega), Nat.testBit_succ]
      congr 1
      have := Bool.toNat_le (f n)
      omega

/-- Bit n from the m.s. end of a word given by its bits. -/
theorem getMsbD_wordOfBits (f : Nat → Bool) {n : Nat} (hn : n < 48) :
    (wordOfBits f).getMsbD n = f n := by
  rw [BitVec.getMsbD_eq_getLsbD, wordOfBits, BitVec.getLsbD_ofNat]
  have h : (48 - 1 - n) < 48 := by omega
  simp only [hn, h, decide_true, Bool.true_and, testBit_foldl_bits f 48 _ h]
  congr 1
  omega

theorem toNat_toAddr (c : Installation) (n : Nat) (hc : c.addrBits ≤ 24) :
    (toAddr c n).toNat = n % 2 ^ c.addrBits := by
  have h : 2 ^ c.addrBits ≤ 2 ^ 24 := Nat.pow_le_pow_right (by decide) hc
  have h' : n % 2 ^ c.addrBits < 2 ^ c.addrBits := Nat.mod_lt _ (Nat.two_pow_pos _)
  rw [toAddr, BitVec.toNat_ofNat, Nat.mod_eq_of_lt (by omega)]

theorem toAddr_lt (c : Installation) (n : Nat) : (toAddr c n).toNat < 2 ^ c.addrBits := by
  have h' : n % 2 ^ c.addrBits < 2 ^ c.addrBits := Nat.mod_lt _ (Nat.two_pow_pos _)
  rw [toAddr, BitVec.toNat_ofNat]
  exact Nat.lt_of_le_of_lt (Nat.mod_le _ _) h'

theorem toLink_lt (c : Installation) (v : Link) : (toLink c v).toNat < 2 ^ c.jBits := by
  have h' : v.toNat % 2 ^ c.jBits < 2 ^ c.jBits := Nat.mod_lt _ (Nat.two_pow_pos _)
  rw [toLink, BitVec.toNat_ofNat]
  exact Nat.lt_of_le_of_lt (Nat.mod_le _ _) h'

/-- The place i + 1 is the successor of the place i (R43). -/
theorem placeAt_succ (word i : Nat) : placeAt word (i + 1) = (placeAt word i).next := by
  have hc : (placeAt word i).char = i % 8 := rfl
  have hw : (placeAt word i).word = word + i / 8 := rfl
  rw [Place.next, hc, hw]
  by_cases h : i % 8 < 7
  · rw [if_pos h, placeAt, Place.mk.injEq]; omega
  · rw [if_neg h, placeAt, Place.mk.injEq]; omega

end Sys2Proof.Machine
end

