-- ==== Sys2Proof/Laws/Memory.lean ====
section
/-!
SUPPORT. The laws of the store: reading after writing, and that writing keeps the canonical form.
-/

namespace Sys2Proof.Machine

theorem Memory.read_cons (b : Nat) (v : Word) (m : Memory) (a : Nat) :
    Memory.read ((b, v) :: m) a = if b = a then v else Memory.read m a := rfl

theorem Memory.wfFrom_cons {lo b : Nat} {v : Word} {m : Memory} :
    Memory.wfFrom lo ((b, v) :: m) = true ↔
      lo ≤ b ∧ v ≠ coldWord ∧ Memory.wfFrom (b + 1) m = true := by
  simp [Memory.wfFrom, and_assoc]

theorem Memory.wfFrom_mono {lo lo' : Nat} (h : lo ≤ lo') {m : Memory}
    (hm : Memory.wfFrom lo' m = true) : Memory.wfFrom lo m = true := by
  cases m with
  | nil => rfl
  | cons p rest =>
    obtain ⟨b, v⟩ := p
    rw [Memory.wfFrom_cons] at hm ⊢
    exact ⟨by omega, hm.2⟩

/-- Below its first address a canonical store reads as cold. -/
theorem Memory.read_below {lo : Nat} {m : Memory} (hm : Memory.wfFrom lo m = true) {a : Nat}
    (ha : a < lo) : m.read a = coldWord := by
  induction m generalizing lo with
  | nil => rfl
  | cons p rest ih =>
    obtain ⟨b, v⟩ := p
    rw [Memory.wfFrom_cons] at hm
    rw [Memory.read_cons, if_neg (by omega)]
    exact ih hm.2.2 (by omega)

/-- Reading after writing, in a canonical store. -/
theorem Memory.read_write_from {lo : Nat} {m : Memory} (hm : Memory.wfFrom lo m = true) (a : Nat)
    (v : Word) (b : Nat) : (m.write a v).read b = if b = a then v else m.read b := by
  induction m generalizing lo with
  | nil =>
    by_cases hv : v = coldWord
    · simp [Memory.write, Memory.read, hv]
    · by_cases h : b = a
      · simp [Memory.write, Memory.read, hv, h]
      · simp [Memory.write, Memory.read, hv, h, Ne.symm h]
  | cons p rest ih =>
    obtain ⟨c, u⟩ := p
    rw [Memory.wfFrom_cons] at hm
    have below : ∀ x, x ≤ c → Memory.read rest x = coldWord := fun x hx =>
      Memory.read_below hm.2.2 (by omega)
    simp only [Memory.write]
    split
    · split
      · rename_i hac hv
        by_cases h : b = a
        · subst h
          rw [Memory.read_cons, if_neg (by omega), if_pos rfl, below _ (by omega), hv]
        · rw [if_neg h]
      · rw [Memory.read_cons]
        by_cases h : b = a
        · rw [if_pos h.symm, if_pos h]
        · rw [if_neg (Ne.symm h), if_neg h]
    · split
      · rename_i hac heq
        subst heq
        split
        · rename_i hv
          by_cases h : b = a
          · rw [if_pos h, h, below _ (Nat.le_refl _), hv]
          · rw [if_neg h, Memory.read_cons, if_neg (Ne.symm h)]
        · rw [Memory.read_cons]
          by_cases h : b = a
          · rw [if_pos h.symm, if_pos h]
          · rw [if_neg (Ne.symm h), if_neg h, Memory.read_cons, if_neg (Ne.symm h)]
      · rw [Memory.read_cons, ih hm.2.2, Memory.read_cons]
        by_cases h : c = b
        · rw [if_pos h, if_neg (by omega), if_pos h]
        · rw [if_neg h, if_neg h]

theorem Memory.read_write {m : Memory} (hm : m.wf = true) (a : Nat) (v : Word) (b : Nat) :
    (m.write a v).read b = if b = a then v else m.read b :=
  Memory.read_write_from hm a v b

theorem Memory.read_write_self {m : Memory} (hm : m.wf = true) (a : Nat) (v : Word) :
    (m.write a v).read a = v := by rw [Memory.read_write hm, if_pos rfl]

theorem Memory.read_write_of_ne {m : Memory} (hm : m.wf = true) {a b : Nat} (h : b ≠ a)
    (v : Word) : (m.write a v).read b = m.read b := by rw [Memory.read_write hm, if_neg h]

theorem Memory.wfFrom_write {lo : Nat} {m : Memory} (hm : Memory.wfFrom lo m = true) {a : Nat}
    (ha : lo ≤ a) (v : Word) : Memory.wfFrom lo (m.write a v) = true := by
  induction m generalizing lo with
  | nil =>
    by_cases hv : v = coldWord
    · simp [Memory.write, Memory.wfFrom, hv]
    · rw [Memory.write, if_neg hv, Memory.wfFrom_cons]
      exact ⟨ha, hv, rfl⟩
  | cons p rest ih =>
    obtain ⟨c, u⟩ := p
    have hm' := hm
    rw [Memory.wfFrom_cons] at hm
    simp only [Memory.write]
    split
    · split
      · exact hm'
      · rename_i hv
        simp only [Memory.wfFrom_cons]
        exact ⟨ha, hv, by omega, hm.2.1, hm.2.2⟩
    · split
      · rename_i heq
        subst heq
        split
        · exact Memory.wfFrom_mono (by omega) hm.2.2
        · rename_i hv
          rw [Memory.wfFrom_cons]
          exact ⟨ha, hv, hm.2.2⟩
      · rw [Memory.wfFrom_cons]
        exact ⟨hm.1, hm.2.1, ih hm.2.2 (by omega)⟩

/-- Writing keeps the canonical form. -/
theorem Memory.wf_write {m : Memory} (hm : m.wf = true) (a : Nat) (v : Word) :
    (m.write a v).wf = true := Memory.wfFrom_write hm (Nat.zero_le _) v

/-- Writing inside the store keeps every listed word inside it. -/
theorem Memory.within_write {n : Nat} {m : Memory} (hm : m.within n = true) {a : Nat} (ha : a < n)
    (v : Word) : (m.write a v).within n = true := by
  induction m with
  | nil =>
    by_cases hv : v = coldWord
    · simp [Memory.write, Memory.within, hv]
    · simp [Memory.write, Memory.within, hv, ha]
  | cons p rest ih =>
    obtain ⟨c, u⟩ := p
    simp only [Memory.within, List.all_cons, Bool.and_eq_true, decide_eq_true_eq] at hm ih ⊢
    simp only [Memory.write]
    split
    · split
      · simpa using hm
      · simpa [ha] using hm
    · split
      · split
        · exact hm.2
        · simpa [ha] using hm.2
      · simp only [List.all_cons, Bool.and_eq_true, decide_eq_true_eq]
        exact ⟨hm.1, ih hm.2⟩

end Sys2Proof.Machine
end

