-- ==== Sys2Proof/Laws/State.lean ====
section
/-!
SUPPORT. One lemma for each field and each named update of the state, so that no proof unfolds a
record update.
-/

namespace Sys2Proof.Machine

variable (s : State)

/-! ### putWord -/

@[simp] theorem State.putWord_mem (a : Nat) (v : Word) :
    (s.putWord a v).mem = s.mem.write a v := rfl
@[simp] theorem State.putWord_pc (a : Nat) (v : Word) : (s.putWord a v).pc = s.pc := rfl
@[simp] theorem State.putWord_xcFF (a : Nat) (v : Word) : (s.putWord a v).xcFF = s.xcFF := rfl
@[simp] theorem State.putWord_xcKey (a : Nat) (v : Word) : (s.putWord a v).xcKey = s.xcKey := rfl
@[simp] theorem State.putWord_ovr (a : Nat) (v : Word) : (s.putWord a v).ovr = s.ovr := rfl
@[simp] theorem State.putWord_w (a : Nat) (v : Word) : (s.putWord a v).w = s.w := rfl
@[simp] theorem State.putWord_j (a : Nat) (v : Word) : (s.putWord a v).j = s.j := rfl
@[simp] theorem State.putWord_ind (a : Nat) (v : Word) : (s.putWord a v).ind = s.ind := rfl
@[simp] theorem State.putWord_opt (a : Nat) (v : Word) : (s.putWord a v).opt = s.opt := rfl
@[simp] theorem State.putWord_entryF (a : Nat) (v : Word) : (s.putWord a v).entryF = s.entryF := rfl
@[simp] theorem State.putWord_res (a : Nat) (v : Word) : (s.putWord a v).res = s.res := rfl
@[simp] theorem State.putWord_lockouts (a : Nat) (v : Word) :
    (s.putWord a v).lockouts = s.lockouts := rfl
@[simp] theorem State.putWord_bus (a : Nat) (v : Word) : (s.putWord a v).bus = s.bus := rfl
@[simp] theorem State.putWord_leaving (a : Nat) (v : Word) :
    (s.putWord a v).leaving = s.leaving := rfl
@[simp] theorem State.putWord_faulted (a : Nat) (v : Word) :
    (s.putWord a v).faulted = s.faulted := rfl
@[simp] theorem State.putWord_refusedMark (a : Nat) (v : Word) :
    (s.putWord a v).refusedMark = s.refusedMark := rfl
@[simp] theorem State.putWord_replies (a : Nat) (v : Word) :
    (s.putWord a v).replies = s.replies := rfl
@[simp] theorem State.putWord_inputs (a : Nat) (v : Word) : (s.putWord a v).inputs = s.inputs := rfl
@[simp] theorem State.putWord_draws (a : Nat) (v : Word) : (s.putWord a v).draws = s.draws := rfl
@[simp] theorem State.putWord_inst (a : Nat) (v : Word) : (s.putWord a v).inst = s.inst := rfl

/-! ### advance -/

@[simp] theorem State.advance_mem : (s.advance).mem = s.mem := rfl
@[simp] theorem State.advance_pc : (s.advance).pc = s.pc + 1 := rfl
@[simp] theorem State.advance_xcFF : (s.advance).xcFF = s.xcFF := rfl
@[simp] theorem State.advance_xcKey : (s.advance).xcKey = s.xcKey := rfl
@[simp] theorem State.advance_ovr : (s.advance).ovr = s.ovr := rfl
@[simp] theorem State.advance_w : (s.advance).w = s.w := rfl
@[simp] theorem State.advance_j : (s.advance).j = s.j := rfl
@[simp] theorem State.advance_ind : (s.advance).ind = s.ind := rfl
@[simp] theorem State.advance_opt : (s.advance).opt = s.opt := rfl
@[simp] theorem State.advance_entryF : (s.advance).entryF = s.entryF := rfl
@[simp] theorem State.advance_res : (s.advance).res = s.res := rfl
@[simp] theorem State.advance_lockouts : (s.advance).lockouts = s.lockouts := rfl
@[simp] theorem State.advance_bus : (s.advance).bus = s.bus := rfl
@[simp] theorem State.advance_leaving : (s.advance).leaving = s.leaving := rfl
@[simp] theorem State.advance_faulted : (s.advance).faulted = s.faulted := rfl
@[simp] theorem State.advance_refusedMark : (s.advance).refusedMark = s.refusedMark := rfl
@[simp] theorem State.advance_replies : (s.advance).replies = s.replies := rfl
@[simp] theorem State.advance_inputs : (s.advance).inputs = s.inputs := rfl
@[simp] theorem State.advance_draws : (s.advance).draws = s.draws := rfl
@[simp] theorem State.advance_inst : (s.advance).inst = s.inst := rfl

/-! ### skipDraws -/

@[simp] theorem State.skipDraws_mem (n : Nat) : (s.skipDraws n).mem = s.mem := rfl
@[simp] theorem State.skipDraws_pc (n : Nat) : (s.skipDraws n).pc = s.pc := rfl
@[simp] theorem State.skipDraws_xcFF (n : Nat) : (s.skipDraws n).xcFF = s.xcFF := rfl
@[simp] theorem State.skipDraws_xcKey (n : Nat) : (s.skipDraws n).xcKey = s.xcKey := rfl
@[simp] theorem State.skipDraws_ovr (n : Nat) : (s.skipDraws n).ovr = s.ovr := rfl
@[simp] theorem State.skipDraws_w (n : Nat) : (s.skipDraws n).w = s.w := rfl
@[simp] theorem State.skipDraws_j (n : Nat) : (s.skipDraws n).j = s.j := rfl
@[simp] theorem State.skipDraws_ind (n : Nat) : (s.skipDraws n).ind = s.ind := rfl
@[simp] theorem State.skipDraws_opt (n : Nat) : (s.skipDraws n).opt = s.opt := rfl
@[simp] theorem State.skipDraws_entryF (n : Nat) : (s.skipDraws n).entryF = s.entryF := rfl
@[simp] theorem State.skipDraws_res (n : Nat) : (s.skipDraws n).res = s.res := rfl
@[simp] theorem State.skipDraws_lockouts (n : Nat) : (s.skipDraws n).lockouts = s.lockouts := rfl
@[simp] theorem State.skipDraws_bus (n : Nat) : (s.skipDraws n).bus = s.bus := rfl
@[simp] theorem State.skipDraws_leaving (n : Nat) : (s.skipDraws n).leaving = s.leaving := rfl
@[simp] theorem State.skipDraws_faulted (n : Nat) : (s.skipDraws n).faulted = s.faulted := rfl
@[simp] theorem State.skipDraws_refusedMark (n : Nat) :
    (s.skipDraws n).refusedMark = s.refusedMark := rfl
@[simp] theorem State.skipDraws_replies (n : Nat) : (s.skipDraws n).replies = s.replies := rfl
@[simp] theorem State.skipDraws_inputs (n : Nat) : (s.skipDraws n).inputs = s.inputs := rfl
@[simp] theorem State.skipDraws_draws (n : Nat) : (s.skipDraws n).draws = s.draws + n := rfl
@[simp] theorem State.skipDraws_inst (n : Nat) : (s.skipDraws n).inst = s.inst := rfl

/-! ### emit -/

@[simp] theorem State.emit_mem (e : BusEvent) : (s.emit e).mem = s.mem := rfl
@[simp] theorem State.emit_pc (e : BusEvent) : (s.emit e).pc = s.pc := rfl
@[simp] theorem State.emit_xcFF (e : BusEvent) : (s.emit e).xcFF = s.xcFF := rfl
@[simp] theorem State.emit_xcKey (e : BusEvent) : (s.emit e).xcKey = s.xcKey := rfl
@[simp] theorem State.emit_ovr (e : BusEvent) : (s.emit e).ovr = s.ovr := rfl
@[simp] theorem State.emit_w (e : BusEvent) : (s.emit e).w = s.w := rfl
@[simp] theorem State.emit_j (e : BusEvent) : (s.emit e).j = s.j := rfl
@[simp] theorem State.emit_ind (e : BusEvent) : (s.emit e).ind = s.ind := rfl
@[simp] theorem State.emit_opt (e : BusEvent) : (s.emit e).opt = s.opt := rfl
@[simp] theorem State.emit_entryF (e : BusEvent) : (s.emit e).entryF = s.entryF := rfl
@[simp] theorem State.emit_res (e : BusEvent) : (s.emit e).res = s.res := rfl
@[simp] theorem State.emit_lockouts (e : BusEvent) : (s.emit e).lockouts = s.lockouts := rfl
@[simp] theorem State.emit_bus (e : BusEvent) : (s.emit e).bus = s.bus ++ [e] := rfl
@[simp] theorem State.emit_leaving (e : BusEvent) : (s.emit e).leaving = s.leaving := rfl
@[simp] theorem State.emit_faulted (e : BusEvent) : (s.emit e).faulted = s.faulted := rfl
@[simp] theorem State.emit_refusedMark (e : BusEvent) :
    (s.emit e).refusedMark = s.refusedMark := rfl
@[simp] theorem State.emit_replies (e : BusEvent) : (s.emit e).replies = s.replies := rfl
@[simp] theorem State.emit_inputs (e : BusEvent) : (s.emit e).inputs = s.inputs := rfl
@[simp] theorem State.emit_draws (e : BusEvent) : (s.emit e).draws = s.draws := rfl
@[simp] theorem State.emit_inst (e : BusEvent) : (s.emit e).inst = s.inst := rfl

/-! ### takeReply -/

@[simp] theorem State.takeReply_mem : (s.takeReply).mem = s.mem := rfl
@[simp] theorem State.takeReply_pc : (s.takeReply).pc = s.pc := rfl
@[simp] theorem State.takeReply_xcFF : (s.takeReply).xcFF = s.xcFF := rfl
@[simp] theorem State.takeReply_xcKey : (s.takeReply).xcKey = s.xcKey := rfl
@[simp] theorem State.takeReply_ovr : (s.takeReply).ovr = s.ovr := rfl
@[simp] theorem State.takeReply_w : (s.takeReply).w = s.w := rfl
@[simp] theorem State.takeReply_j : (s.takeReply).j = s.j := rfl
@[simp] theorem State.takeReply_ind : (s.takeReply).ind = s.ind := rfl
@[simp] theorem State.takeReply_opt : (s.takeReply).opt = s.opt := rfl
@[simp] theorem State.takeReply_entryF : (s.takeReply).entryF = s.entryF := rfl
@[simp] theorem State.takeReply_res : (s.takeReply).res = s.res := rfl
@[simp] theorem State.takeReply_lockouts : (s.takeReply).lockouts = s.lockouts := rfl
@[simp] theorem State.takeReply_bus : (s.takeReply).bus = s.bus := rfl
@[simp] theorem State.takeReply_leaving : (s.takeReply).leaving = s.leaving := rfl
@[simp] theorem State.takeReply_faulted : (s.takeReply).faulted = s.faulted := rfl
@[simp] theorem State.takeReply_refusedMark : (s.takeReply).refusedMark = s.refusedMark := rfl
@[simp] theorem State.takeReply_replies : (s.takeReply).replies = s.replies.drop 1 := rfl
@[simp] theorem State.takeReply_inputs : (s.takeReply).inputs = s.inputs := rfl
@[simp] theorem State.takeReply_draws : (s.takeReply).draws = s.draws := rfl
@[simp] theorem State.takeReply_inst : (s.takeReply).inst = s.inst := rfl

/-! ### setLockout -/

@[simp] theorem State.setLockout_mem (t : Fin 7) (l : Lockout) :
    (s.setLockout t l).mem = s.mem := rfl
@[simp] theorem State.setLockout_pc (t : Fin 7) (l : Lockout) : (s.setLockout t l).pc = s.pc := rfl
@[simp] theorem State.setLockout_xcFF (t : Fin 7) (l : Lockout) :
    (s.setLockout t l).xcFF = s.xcFF := rfl
@[simp] theorem State.setLockout_xcKey (t : Fin 7) (l : Lockout) :
    (s.setLockout t l).xcKey = s.xcKey := rfl
@[simp] theorem State.setLockout_ovr (t : Fin 7) (l : Lockout) :
    (s.setLockout t l).ovr = s.ovr := rfl
@[simp] theorem State.setLockout_w (t : Fin 7) (l : Lockout) : (s.setLockout t l).w = s.w := rfl
@[simp] theorem State.setLockout_j (t : Fin 7) (l : Lockout) : (s.setLockout t l).j = s.j := rfl
@[simp] theorem State.setLockout_ind (t : Fin 7) (l : Lockout) :
    (s.setLockout t l).ind = s.ind := rfl
@[simp] theorem State.setLockout_opt (t : Fin 7) (l : Lockout) :
    (s.setLockout t l).opt = s.opt := rfl
@[simp] theorem State.setLockout_entryF (t : Fin 7) (l : Lockout) :
    (s.setLockout t l).entryF = s.entryF := rfl
@[simp] theorem State.setLockout_res (t : Fin 7) (l : Lockout) :
    (s.setLockout t l).res = s.res := rfl
@[simp] theorem State.setLockout_lockouts (t : Fin 7) (l : Lockout) :
    (s.setLockout t l).lockouts = s.lockouts.set t l := rfl
@[simp] theorem State.setLockout_bus (t : Fin 7) (l : Lockout) :
    (s.setLockout t l).bus = s.bus := rfl
@[simp] theorem State.setLockout_leaving (t : Fin 7) (l : Lockout) :
    (s.setLockout t l).leaving = s.leaving := rfl
@[simp] theorem State.setLockout_faulted (t : Fin 7) (l : Lockout) :
    (s.setLockout t l).faulted = s.faulted := rfl
@[simp] theorem State.setLockout_refusedMark (t : Fin 7) (l : Lockout) :
    (s.setLockout t l).refusedMark = s.refusedMark := rfl
@[simp] theorem State.setLockout_replies (t : Fin 7) (l : Lockout) :
    (s.setLockout t l).replies = s.replies := rfl
@[simp] theorem State.setLockout_inputs (t : Fin 7) (l : Lockout) :
    (s.setLockout t l).inputs = s.inputs := rfl
@[simp] theorem State.setLockout_draws (t : Fin 7) (l : Lockout) :
    (s.setLockout t l).draws = s.draws := rfl
@[simp] theorem State.setLockout_inst (t : Fin 7) (l : Lockout) :
    (s.setLockout t l).inst = s.inst := rfl

/-! ### enterMode -/

@[simp] theorem State.enterMode_mem (f : Function7) : (s.enterMode f).mem = s.mem := rfl
@[simp] theorem State.enterMode_pc (f : Function7) : (s.enterMode f).pc = extracodeStart := rfl
@[simp] theorem State.enterMode_xcFF (f : Function7) : (s.enterMode f).xcFF = true := rfl
@[simp] theorem State.enterMode_xcKey (f : Function7) : (s.enterMode f).xcKey = s.xcKey := rfl
@[simp] theorem State.enterMode_ovr (f : Function7) : (s.enterMode f).ovr = s.ovr := rfl
@[simp] theorem State.enterMode_w (f : Function7) : (s.enterMode f).w = s.w := rfl
@[simp] theorem State.enterMode_j (f : Function7) : (s.enterMode f).j = s.j := rfl
@[simp] theorem State.enterMode_ind (f : Function7) : (s.enterMode f).ind = s.ind := rfl
@[simp] theorem State.enterMode_opt (f : Function7) : (s.enterMode f).opt = s.opt := rfl
@[simp] theorem State.enterMode_entryF (f : Function7) : (s.enterMode f).entryF = some f := rfl
@[simp] theorem State.enterMode_res (f : Function7) : (s.enterMode f).res = s.res := rfl
@[simp] theorem State.enterMode_lockouts (f : Function7) :
    (s.enterMode f).lockouts = s.lockouts := rfl
@[simp] theorem State.enterMode_bus (f : Function7) : (s.enterMode f).bus = s.bus := rfl
@[simp] theorem State.enterMode_leaving (f : Function7) : (s.enterMode f).leaving = s.leaving := rfl
@[simp] theorem State.enterMode_faulted (f : Function7) : (s.enterMode f).faulted = s.faulted := rfl
@[simp] theorem State.enterMode_refusedMark (f : Function7) :
    (s.enterMode f).refusedMark = s.refusedMark := rfl
@[simp] theorem State.enterMode_replies (f : Function7) : (s.enterMode f).replies = s.replies := rfl
@[simp] theorem State.enterMode_inputs (f : Function7) : (s.enterMode f).inputs = s.inputs := rfl
@[simp] theorem State.enterMode_draws (f : Function7) : (s.enterMode f).draws = s.draws := rfl
@[simp] theorem State.enterMode_inst (f : Function7) : (s.enterMode f).inst = s.inst := rfl

/-! ### leave -/

@[simp] theorem State.leave_mem (l : Leaving) : (s.leave l).mem = s.mem := rfl
@[simp] theorem State.leave_pc (l : Leaving) : (s.leave l).pc = s.pc := rfl
@[simp] theorem State.leave_xcFF (l : Leaving) : (s.leave l).xcFF = false := rfl
@[simp] theorem State.leave_xcKey (l : Leaving) : (s.leave l).xcKey = s.xcKey := rfl
@[simp] theorem State.leave_ovr (l : Leaving) : (s.leave l).ovr = s.ovr := rfl
@[simp] theorem State.leave_w (l : Leaving) : (s.leave l).w = s.w := rfl
@[simp] theorem State.leave_j (l : Leaving) : (s.leave l).j = s.j := rfl
@[simp] theorem State.leave_ind (l : Leaving) : (s.leave l).ind = s.ind := rfl
@[simp] theorem State.leave_opt (l : Leaving) : (s.leave l).opt = s.opt := rfl
@[simp] theorem State.leave_entryF (l : Leaving) : (s.leave l).entryF = none := rfl
@[simp] theorem State.leave_res (l : Leaving) : (s.leave l).res = s.res := rfl
@[simp] theorem State.leave_lockouts (l : Leaving) : (s.leave l).lockouts = s.lockouts := rfl
@[simp] theorem State.leave_bus (l : Leaving) : (s.leave l).bus = s.bus := rfl
@[simp] theorem State.leave_leaving (l : Leaving) : (s.leave l).leaving = some l := rfl
@[simp] theorem State.leave_faulted (l : Leaving) : (s.leave l).faulted = s.faulted := rfl
@[simp] theorem State.leave_refusedMark (l : Leaving) :
    (s.leave l).refusedMark = s.refusedMark := rfl
@[simp] theorem State.leave_replies (l : Leaving) : (s.leave l).replies = s.replies := rfl
@[simp] theorem State.leave_inputs (l : Leaving) : (s.leave l).inputs = s.inputs := rfl
@[simp] theorem State.leave_draws (l : Leaving) : (s.leave l).draws = s.draws := rfl
@[simp] theorem State.leave_inst (l : Leaving) : (s.leave l).inst = s.inst := rfl

/-! ### setW -/

@[simp] theorem State.setW_mem (v : Addr) : (s.setW v).mem = s.mem := rfl
@[simp] theorem State.setW_pc (v : Addr) : (s.setW v).pc = s.pc := rfl
@[simp] theorem State.setW_xcFF (v : Addr) : (s.setW v).xcFF = s.xcFF := rfl
@[simp] theorem State.setW_xcKey (v : Addr) : (s.setW v).xcKey = s.xcKey := rfl
@[simp] theorem State.setW_ovr (v : Addr) : (s.setW v).ovr = s.ovr := rfl
@[simp] theorem State.setW_w (v : Addr) : (s.setW v).w = v := rfl
@[simp] theorem State.setW_j (v : Addr) : (s.setW v).j = s.j := rfl
@[simp] theorem State.setW_ind (v : Addr) : (s.setW v).ind = s.ind := rfl
@[simp] theorem State.setW_opt (v : Addr) : (s.setW v).opt = s.opt := rfl
@[simp] theorem State.setW_entryF (v : Addr) : (s.setW v).entryF = s.entryF := rfl
@[simp] theorem State.setW_res (v : Addr) : (s.setW v).res = s.res := rfl
@[simp] theorem State.setW_lockouts (v : Addr) : (s.setW v).lockouts = s.lockouts := rfl
@[simp] theorem State.setW_bus (v : Addr) : (s.setW v).bus = s.bus := rfl
@[simp] theorem State.setW_leaving (v : Addr) : (s.setW v).leaving = s.leaving := rfl
@[simp] theorem State.setW_faulted (v : Addr) : (s.setW v).faulted = s.faulted := rfl
@[simp] theorem State.setW_refusedMark (v : Addr) : (s.setW v).refusedMark = s.refusedMark := rfl
@[simp] theorem State.setW_replies (v : Addr) : (s.setW v).replies = s.replies := rfl
@[simp] theorem State.setW_inputs (v : Addr) : (s.setW v).inputs = s.inputs := rfl
@[simp] theorem State.setW_draws (v : Addr) : (s.setW v).draws = s.draws := rfl
@[simp] theorem State.setW_inst (v : Addr) : (s.setW v).inst = s.inst := rfl

/-! ### actIndicators -/

@[simp] theorem State.actIndicators_mem (x : Field15) : (s.actIndicators x).mem = s.mem := rfl
@[simp] theorem State.actIndicators_pc (x : Field15) : (s.actIndicators x).pc = s.pc := rfl
@[simp] theorem State.actIndicators_xcFF (x : Field15) : (s.actIndicators x).xcFF = s.xcFF := rfl
@[simp] theorem State.actIndicators_xcKey (x : Field15) : (s.actIndicators x).xcKey = s.xcKey := rfl
@[simp] theorem State.actIndicators_ovr (x : Field15) : (s.actIndicators x).ovr = s.ovr := rfl
@[simp] theorem State.actIndicators_w (x : Field15) : (s.actIndicators x).w = s.w := rfl
@[simp] theorem State.actIndicators_j (x : Field15) : (s.actIndicators x).j = s.j := rfl
@[simp] theorem State.actIndicators_ind (x : Field15) :
    (s.actIndicators x).ind = setIndicators x s.ind := rfl
@[simp] theorem State.actIndicators_opt (x : Field15) : (s.actIndicators x).opt = s.opt := rfl
@[simp] theorem State.actIndicators_entryF (x : Field15) :
    (s.actIndicators x).entryF = s.entryF := rfl
@[simp] theorem State.actIndicators_res (x : Field15) : (s.actIndicators x).res = s.res := rfl
@[simp] theorem State.actIndicators_lockouts (x : Field15) :
    (s.actIndicators x).lockouts = s.lockouts := rfl
@[simp] theorem State.actIndicators_bus (x : Field15) : (s.actIndicators x).bus = s.bus := rfl
@[simp] theorem State.actIndicators_leaving (x : Field15) :
    (s.actIndicators x).leaving = s.leaving := rfl
@[simp] theorem State.actIndicators_faulted (x : Field15) :
    (s.actIndicators x).faulted = s.faulted := rfl
@[simp] theorem State.actIndicators_refusedMark (x : Field15) :
    (s.actIndicators x).refusedMark = s.refusedMark := rfl
@[simp] theorem State.actIndicators_replies (x : Field15) :
    (s.actIndicators x).replies = s.replies := rfl
@[simp] theorem State.actIndicators_inputs (x : Field15) :
    (s.actIndicators x).inputs = s.inputs := rfl
@[simp] theorem State.actIndicators_draws (x : Field15) : (s.actIndicators x).draws = s.draws := rfl
@[simp] theorem State.actIndicators_inst (x : Field15) : (s.actIndicators x).inst = s.inst := rfl

/-! ### raiseOvr -/

@[simp] theorem State.raiseOvr_mem (b : Bool) : (s.raiseOvr b).mem = s.mem := rfl
@[simp] theorem State.raiseOvr_pc (b : Bool) : (s.raiseOvr b).pc = s.pc := rfl
@[simp] theorem State.raiseOvr_xcFF (b : Bool) : (s.raiseOvr b).xcFF = s.xcFF := rfl
@[simp] theorem State.raiseOvr_xcKey (b : Bool) : (s.raiseOvr b).xcKey = s.xcKey := rfl
@[simp] theorem State.raiseOvr_ovr (b : Bool) : (s.raiseOvr b).ovr = (s.ovr || b) := rfl
@[simp] theorem State.raiseOvr_w (b : Bool) : (s.raiseOvr b).w = s.w := rfl
@[simp] theorem State.raiseOvr_j (b : Bool) : (s.raiseOvr b).j = s.j := rfl
@[simp] theorem State.raiseOvr_ind (b : Bool) : (s.raiseOvr b).ind = s.ind := rfl
@[simp] theorem State.raiseOvr_opt (b : Bool) : (s.raiseOvr b).opt = s.opt := rfl
@[simp] theorem State.raiseOvr_entryF (b : Bool) : (s.raiseOvr b).entryF = s.entryF := rfl
@[simp] theorem State.raiseOvr_res (b : Bool) : (s.raiseOvr b).res = s.res := rfl
@[simp] theorem State.raiseOvr_lockouts (b : Bool) : (s.raiseOvr b).lockouts = s.lockouts := rfl
@[simp] theorem State.raiseOvr_bus (b : Bool) : (s.raiseOvr b).bus = s.bus := rfl
@[simp] theorem State.raiseOvr_leaving (b : Bool) : (s.raiseOvr b).leaving = s.leaving := rfl
@[simp] theorem State.raiseOvr_faulted (b : Bool) : (s.raiseOvr b).faulted = s.faulted := rfl
@[simp] theorem State.raiseOvr_refusedMark (b : Bool) :
    (s.raiseOvr b).refusedMark = s.refusedMark := rfl
@[simp] theorem State.raiseOvr_replies (b : Bool) : (s.raiseOvr b).replies = s.replies := rfl
@[simp] theorem State.raiseOvr_inputs (b : Bool) : (s.raiseOvr b).inputs = s.inputs := rfl
@[simp] theorem State.raiseOvr_draws (b : Bool) : (s.raiseOvr b).draws = s.draws := rfl
@[simp] theorem State.raiseOvr_inst (b : Bool) : (s.raiseOvr b).inst = s.inst := rfl

/-! ### setOvr -/

@[simp] theorem State.setOvr_mem (b : Bool) : (s.setOvr b).mem = s.mem := rfl
@[simp] theorem State.setOvr_pc (b : Bool) : (s.setOvr b).pc = s.pc := rfl
@[simp] theorem State.setOvr_xcFF (b : Bool) : (s.setOvr b).xcFF = s.xcFF := rfl
@[simp] theorem State.setOvr_xcKey (b : Bool) : (s.setOvr b).xcKey = s.xcKey := rfl
@[simp] theorem State.setOvr_ovr (b : Bool) : (s.setOvr b).ovr = b := rfl
@[simp] theorem State.setOvr_w (b : Bool) : (s.setOvr b).w = s.w := rfl
@[simp] theorem State.setOvr_j (b : Bool) : (s.setOvr b).j = s.j := rfl
@[simp] theorem State.setOvr_ind (b : Bool) : (s.setOvr b).ind = s.ind := rfl
@[simp] theorem State.setOvr_opt (b : Bool) : (s.setOvr b).opt = s.opt := rfl
@[simp] theorem State.setOvr_entryF (b : Bool) : (s.setOvr b).entryF = s.entryF := rfl
@[simp] theorem State.setOvr_res (b : Bool) : (s.setOvr b).res = s.res := rfl
@[simp] theorem State.setOvr_lockouts (b : Bool) : (s.setOvr b).lockouts = s.lockouts := rfl
@[simp] theorem State.setOvr_bus (b : Bool) : (s.setOvr b).bus = s.bus := rfl
@[simp] theorem State.setOvr_leaving (b : Bool) : (s.setOvr b).leaving = s.leaving := rfl
@[simp] theorem State.setOvr_faulted (b : Bool) : (s.setOvr b).faulted = s.faulted := rfl
@[simp] theorem State.setOvr_refusedMark (b : Bool) :
    (s.setOvr b).refusedMark = s.refusedMark := rfl
@[simp] theorem State.setOvr_replies (b : Bool) : (s.setOvr b).replies = s.replies := rfl
@[simp] theorem State.setOvr_inputs (b : Bool) : (s.setOvr b).inputs = s.inputs := rfl
@[simp] theorem State.setOvr_draws (b : Bool) : (s.setOvr b).draws = s.draws := rfl
@[simp] theorem State.setOvr_inst (b : Bool) : (s.setOvr b).inst = s.inst := rfl

/-! ### A write of the store commutes with the bookkeeping -/

theorem State.putWord_skipDraws (n a : Nat) (v : Word) :
    (s.skipDraws n).putWord a v = (s.putWord a v).skipDraws n := rfl

theorem State.putWord_emit (e : BusEvent) (a : Nat) (v : Word) :
    (s.emit e).putWord a v = (s.putWord a v).emit e := rfl

theorem State.putWord_takeReply (a : Nat) (v : Word) :
    s.takeReply.putWord a v = (s.putWord a v).takeReply := rfl

/-! ### Reading a lockout tester -/

@[simp] theorem State.lockout_setLockout_self (t : Fin 7) (l : Lockout) :
    (s.setLockout t l).lockout t = l := by
  simp [State.lockout, State.setLockout]

theorem State.lockout_setLockout_of_ne {t u : Fin 7} (h : t ≠ u) (l : Lockout) :
    (s.setLockout t l).lockout u = s.lockout u := by
  have : (t : Nat) ≠ u := fun e => h (Fin.ext e)
  simp [State.lockout, State.setLockout, this]

end Sys2Proof.Machine
end

