-- ==== Sys2Proof/Laws/Ops.lean ====
section
/-!
SUPPORT. What each shared operation can do, said once: when an order built from it answers a next
state, and what it answers inside the store.
-/

namespace Sys2Proof.Machine

variable {s t : State} {a n : Nat}

/-! ## Access to the store -/

@[simp] theorem readWord_eq_next {k : Word → Result} :
    readWord s a k = .next t ↔ a < s.inst.storeSize ∧ k (s.mem.read a) = .next t := by
  unfold readWord
  split <;> simp [*]

@[simp] theorem readWords_eq_next {k : List Word → Result} :
    readWords s a n k = .next t ↔
      a + n ≤ s.inst.storeSize ∧ k ((List.range n).map fun i => s.mem.read (a + i)) = .next t := by
  unfold readWords
  split <;> simp [*]

@[simp] theorem writeWord_eq_next {v : Word} {k : State → Result} :
    writeWord s a v k = .next t ↔ a < s.inst.storeSize ∧ k (s.putWord a v) = .next t := by
  unfold writeWord
  split <;> simp [*]

theorem readWord_of_lt (h : a < s.inst.storeSize) (k : Word → Result) :
    readWord s a k = k (s.mem.read a) := if_pos h

theorem readWord_of_ge (h : s.inst.storeSize ≤ a) (k : Word → Result) :
    readWord s a k = .fault (.storeBound a) := if_neg (Nat.not_lt.mpr h)

theorem readWords_of_le (h : a + n ≤ s.inst.storeSize) (k : List Word → Result) :
    readWords s a n k = k ((List.range n).map fun i => s.mem.read (a + i)) := if_pos h

theorem readWords_of_gt (h : s.inst.storeSize < a + n) (k : List Word → Result) :
    readWords s a n k = .fault (.storeBound a) := if_neg (Nat.not_le.mpr h)

theorem writeWord_of_lt (h : a < s.inst.storeSize) (v : Word) (k : State → Result) :
    writeWord s a v k = k (s.putWord a v) := if_pos h

theorem writeWord_of_ge (h : s.inst.storeSize ≤ a) (v : Word) (k : State → Result) :
    writeWord s a v k = .fault (.storeBound a) := if_neg (Nat.not_lt.mpr h)

@[simp] theorem nextOrder_eq_next : nextOrder s = .next t ↔ s.advance = t := by
  simp [nextOrder]

/-! ## Operand forms -/

@[simp] theorem needZ_eq_next {p : Nat} {o : Operands} {k : Field15 → Result} :
    needZ p o k = .next t ↔ ∃ z, o.z = some z ∧ k z = .next t := by
  unfold needZ
  cases o.z <;> simp

@[simp] theorem withRegister_eq_next {y : Half} {k : TesterRegister → Result} :
    withRegister s y k = .next t ↔ ∃ r, selectRegister s.inst y = .ok r ∧ k r = .next t := by
  unfold withRegister
  cases selectRegister s.inst y <;> simp

@[simp] theorem readChar_eq_next {p : Place} {k : Character → Result} :
    readChar s p k = .next t ↔
      p.word < s.inst.storeSize ∧ k (charOf (s.mem.read p.word) p.char) = .next t := by
  simp [readChar]

@[simp] theorem writeChar_eq_next {p : Place} {ch : Character} {k : State → Result} :
    writeChar s p ch k = .next t ↔ p.word < s.inst.storeSize ∧
      k (s.putWord p.word (setChar (s.mem.read p.word) p.char ch)) = .next t := by
  simp only [writeChar, readWord_eq_next, writeWord_eq_next]
  exact ⟨fun h => h.2, fun h => ⟨h.1, h⟩⟩

theorem readChar_of_lt {p : Place} (h : p.word < s.inst.storeSize) (k : Character → Result) :
    readChar s p k = k (charOf (s.mem.read p.word) p.char) := readWord_of_lt h _

theorem writeChar_of_lt {p : Place} (h : p.word < s.inst.storeSize) (ch : Character)
    (k : State → Result) :
    writeChar s p ch k = k (s.putWord p.word (setChar (s.mem.read p.word) p.char ch)) := by
  rw [writeChar, readWord_of_lt h, writeWord_of_lt h]

/-! ## Changes of the store alone -/

/-- t is s after some writes inside the store. -/
structure StoreChange (s t : State) : Prop where
  frame : t = { s with mem := t.mem }
  wf : s.mem.wf = true → t.mem.wf = true
  within : s.mem.within s.inst.storeSize = true → t.mem.within s.inst.storeSize = true
  beyond : s.mem.wf = true → ∀ b, s.inst.storeSize ≤ b → t.mem.read b = s.mem.read b

theorem StoreChange.refl (s : State) : StoreChange s s := ⟨rfl, id, id, fun _ _ _ => rfl⟩

theorem StoreChange.inst (h : StoreChange s t) : t.inst = s.inst := by rw [h.frame]

theorem StoreChange.trans {u : State} (h : StoreChange s t) (h' : StoreChange t u) :
    StoreChange s u where
  frame := by
    have e := h'.frame
    rw [h.frame] at e
    exact e
  wf := fun w => h'.wf (h.wf w)
  within := fun w => by simpa [h.inst] using h'.within (by simpa [h.inst] using h.within w)
  beyond := fun w b hb => by
    rw [h'.beyond (h.wf w) b (by rw [h.inst]; exact hb), h.beyond w b hb]

theorem StoreChange.putWord (ha : a < s.inst.storeSize) (v : Word) :
    StoreChange s (s.putWord a v) where
  frame := rfl
  wf := fun w => Memory.wf_write w a v
  within := fun w => Memory.within_write w ha v
  beyond := fun w b hb => Memory.read_write_of_ne w (by omega) v

theorem StoreChange.put (h : StoreChange s t) (ha : a < s.inst.storeSize) (v : Word) :
    StoreChange s (t.putWord a v) := h.trans (StoreChange.putWord (by rw [h.inst]; exact ha) v)

/-! ## Entry to Extracode -/

/-- The store after entry: the five information words. -/
def entryStore (o : Order) (s : State) : Memory :=
  ((((s.mem.write entryX (entryWordX o s)).write entryFunction (entryWordFunction o s)).write
    entryY (entryWordY o s)).write entryResult (entryWordResult o s)).write entryLink
    (entryWordLink s)

/-- The state after entry. -/
def entered (o : Order) (s : State) : State :=
  { s with mem := entryStore o s, pc := extracodeStart, xcFF := true, entryF := some o.f,
           draws := s.draws + entryDraws s }

/-- Entry needs the five words to be in the store, and then happens (R145, R160). -/
theorem enterExtracode_eq_next (o : Order) :
    enterExtracode o s = .next t ↔ entryLink < s.inst.storeSize ∧ entered o s = t := by
  simp only [enterExtracode, preEntryEffect, writeWord_eq_next, State.putWord_inst]
  constructor
  · rintro ⟨-, -, -, -, h, e⟩
    exact ⟨h, Host.Outcome.next.inj e⟩
  · rintro ⟨h, e⟩
    refine ⟨?_, ?_, ?_, ?_, h, congrArg _ e⟩ <;> simp only [entryX, entryFunction, entryY,
      entryResult, entryLink] at h ⊢ <;> omega

theorem enterExtracode_of_lt (o : Order) (h : entryLink < s.inst.storeSize) :
    enterExtracode o s = .next (entered o s) := (enterExtracode_eq_next o).mpr ⟨h, rfl⟩

theorem entered_storeChange (o : Order) (h : entryLink < s.inst.storeSize) :
    StoreChange s { s with mem := entryStore o s } := by
  have lt : ∀ b, b ≤ entryLink → b < s.inst.storeSize := fun b hb => Nat.lt_of_le_of_lt hb h
  exact (((((StoreChange.refl s).put (lt _ (by decide)) _).put (lt _ (by decide)) _).put
    (lt _ (by decide)) _).put (lt _ (by decide)) _).put (lt _ (by decide)) _

/-- An order that can enter does so exactly when its cause holds outside XC_ACTIVE. -/
theorem obeyEntering_eq_next (p : Nat) (o : Operands) :
    obeyEntering p o s = .next t ↔ (entryCause ⟨s.inst.code p, o⟩ s).isSome = true ∧
      s.xcActive = false ∧ entryLink < s.inst.storeSize ∧
      entered ⟨s.inst.code p, o⟩ s = t := by
  unfold obeyEntering
  simp only
  cases entryCause ⟨s.inst.code p, o⟩ s with
  | none => simp
  | some c =>
    cases h : s.xcActive
    · simp [enterExtracode_eq_next]
    · simp

/-- What has a cause of entry is a function that can enter (R71, R140). -/
theorem entering_of_entryCause {o : Order} (h : (entryCause o s).isSome = true) :
    o.f ∈ enteringFunctions.map s.inst.code := by
  have key : ∀ l : List Nat, o.f ∈ functionsOf s.inst l → (∀ p ∈ l, p ∈ enteringFunctions) →
      o.f ∈ enteringFunctions.map s.inst.code := by
    intro l hm hl
    obtain ⟨p, hp, e⟩ := List.mem_map.mp hm
    exact List.mem_map.mpr ⟨p, hl p hp, e⟩
  unfold entryCause at h
  split at h
  · exact key _ ‹_› (by decide)
  split at h
  · exact key _ ‹_› (by decide)
  split at h
  · exact key _ ‹_› (by decide)
  split at h
  · exact key _ ‹_› (by decide)
  split at h
  · exact key _ ‹_› (by decide)
  split at h
  · exact key _ ‹_› (by decide)
  split at h
  · rename_i e
    exact List.mem_map.mpr ⟨156, by decide, e.symm⟩
  · simp at h

/-! ## What follows leaving -/

theorem putWords_storeChange (s : State) (l : List (Nat × Word)) :
    StoreChange s (putWords s l) := by
  induction l generalizing s with
  | nil => exact StoreChange.refl s
  | cons p rest ih =>
    obtain ⟨b, v⟩ := p
    simp only [putWords]
    split
    · rename_i h
      exact (StoreChange.putWord h v).trans (ih _)
    · exact ih s

/-- An undescribed continuation changes pc, J, OVR and the store, and nothing else (R158). -/
theorem applyOpen_frame (s : State) (e : OpenEffect) :
    applyOpen s e = { s with mem := (applyOpen s e).mem, pc := (toAddr s.inst e.pc.toNat).toNat,
                             j := toLink s.inst e.j, ovr := e.ovr } :=
  (putWords_storeChange _ e.writes).frame

theorem applyOpen_wf (e : OpenEffect) (h : s.mem.wf = true) : (applyOpen s e).mem.wf = true :=
  (putWords_storeChange _ e.writes).wf h

theorem applyOpen_within (e : OpenEffect) (h : s.mem.within s.inst.storeSize = true) :
    (applyOpen s e).mem.within s.inst.storeSize = true :=
  (putWords_storeChange _ e.writes).within h

theorem applyOpen_beyond (e : OpenEffect) (h : s.mem.wf = true) {b : Nat}
    (hb : s.inst.storeSize ≤ b) : (applyOpen s e).mem.read b = s.mem.read b := by
  unfold applyOpen
  refine (putWords_storeChange _ e.writes).beyond ?_ b ?_
  · exact h
  · exact hb

@[simp] theorem applyOpen_inst (s : State) (e : OpenEffect) : (applyOpen s e).inst = s.inst := by
  rw [applyOpen_frame]

/-- What follows an 87 is its normal effects, and after a successful jump one more undescribed effect
(R80). -/
theorem normalEffects87_cases (r : Normal87) (s : State) :
    r.jumped = false ∧ normalEffects87 r s = applyOpen s r.effect ∨
    r.jumped = true ∧ ∃ e, normalEffects87 r s = applyOpen (applyOpen s r.effect) e := by
  unfold normalEffects87
  simp only
  cases r.jumped
  · exact .inl ⟨rfl, rfl⟩
  · exact .inr ⟨rfl, _, rfl⟩

end Sys2Proof.Machine
end

