-- ==== Sys2Proof/Laws/Chars.lean ====
section
/-!
SUPPORT. The store as a sequence of characters: what the character writes of 27E, 105E and 106E do to
it, and what the loop of 140E does to the bits of the store.
-/

namespace Sys2Proof.Machine

/-- A character write changes one character (R41). -/
theorem charAt_setChar {m : Memory} (hm : m.wf = true) (w : Nat) {c : Nat} (hc : c < 8)
    (ch : Character) (q : Nat) : charAt (m.write w (setChar (m.read w) c ch)) q =
      if q = 8 * w + c then ch else charAt m q := by
  unfold charAt
  rw [Memory.read_write hm]
  by_cases h : q / 8 = w
  · rw [if_pos h, charOf_setChar _ hc (by omega), h]
    by_cases h2 : q % 8 = c
    · rw [if_pos h2, if_pos (by omega)]
    · rw [if_neg h2, if_neg (by omega)]
  · rw [if_neg h, if_neg (by omega)]

/-- Zero fill changes the characters after character c of one word (R127). -/
theorem charAt_zeroTail {m : Memory} (hm : m.wf = true) (w c q : Nat) :
    charAt (m.write w (zeroTail (m.read w) c)) q =
      if q / 8 = w ∧ c < q % 8 then 0#6 else charAt m q := by
  unfold charAt
  rw [Memory.read_write hm]
  by_cases h : q / 8 = w
  · rw [if_pos h, charOf_zeroTail _ _ (by omega), h]
    by_cases h2 : q % 8 ≤ c
    · rw [if_pos h2, if_neg (by omega)]
    · rw [if_neg h2, if_pos ⟨rfl, by omega⟩]
  · rw [if_neg h, if_neg (fun e => h e.1)]

/-- Words whose characters agree are equal. -/
theorem read_eq_of_charAt_eq {m m' : Memory} {a : Nat}
    (h : ∀ q, q / 8 = a → charAt m q = charAt m' q) : m.read a = m'.read a := by
  apply eq_of_charOf_eq
  intro c hc
  have := h (8 * a + c) (by omega)
  unfold charAt at this
  rwa [show (8 * a + c) / 8 = a by omega, show (8 * a + c) % 8 = c by omega] at this

/-- The successor of a place is one character further. -/
theorem Place.next_index {p : Place} (h : p.char < 8) :
    8 * p.next.word + p.next.char = 8 * p.word + p.char + 1 ∧ p.next.char < 8 := by
  unfold Place.next
  split <;> simp <;> omega

end Sys2Proof.Machine
end

