-- ==== Sys2Proof/Laws/Meanings.lean ====
section
/-!
SUPPORT. What each meaning can do, said once: from "it answers next t", which fields of t differ from
s. The provers cite these instead of unfolding a meaning.
-/

namespace Sys2Proof.Machine

variable {s t : State} {o : Operands}

/-! ## What the parts of an order change -/

theorem sendControl_frame (o : Operands) (s : State) :
    sendControl o s = { s with bus := (sendControl o s).bus } := by
  unfold sendControl
  split <;> rfl

theorem loadRegister_frame (s : State) (r : TesterRegister) (v : Word) :
    loadRegister s r v = { s with res := (loadRegister s r v).res,
                                  lockouts := (loadRegister s r v).lockouts } := by
  cases r <;> rfl

theorem setOutOfAction_frame (s : State) (r : TesterRegister) (y : Half) :
    setOutOfAction s r y = { s with lockouts := (setOutOfAction s r y).lockouts } := by
  unfold setOutOfAction
  split
  · rfl
  · split <;> rfl

/-! ## The loops -/

theorem transfer_next {stop : Character → Bool} {n : Nat} {src dst : Place} {m : Nat}
    {k : State → Nat → Result} (h : transfer stop n src dst m s k = .next t) :
    ∃ u c, StoreChange s u ∧ k u c = .next t := by
  induction n generalizing src dst m s with
  | zero => exact ⟨s, m, StoreChange.refl s, h⟩
  | succ n ih =>
    simp only [transfer, readChar_eq_next, writeChar_eq_next] at h
    obtain ⟨-, hd, h⟩ := h
    split at h
    · simp only [readWord_eq_next, writeWord_eq_next] at h
      exact ⟨_, _, ((StoreChange.refl s).put hd _).put hd _, h.2.2⟩
    · obtain ⟨u, c, hu, hk⟩ := ih h
      exact ⟨u, c, (StoreChange.putWord hd _).trans hu, hk⟩

theorem placeBits_next {y : Nat} {xv zv : Word} {l : List Nat} {k : State → Result}
    (h : placeBits y xv zv l s k = .next t) : ∃ u, StoreChange s u ∧ k u = .next t := by
  induction l generalizing s with
  | nil => exact ⟨s, StoreChange.refl s, h⟩
  | cons i rest ih =>
    simp only [placeBits, readWord_eq_next, writeWord_eq_next] at h
    obtain ⟨u, hu, hk⟩ := ih h.2.2
    exact ⟨u, (StoreChange.putWord h.1 _).trans hu, hk⟩

theorem fillPlaces_next {x : Nat} {fill : Option Character} {n d : Nat} {k : State → Result}
    (h : fillPlaces x fill n d s k = .next t) : ∃ u, StoreChange s u ∧ k u = .next t := by
  induction n generalizing d s with
  | zero => exact ⟨s, StoreChange.refl s, h⟩
  | succ n ih =>
    cases fill with
    | none => exact ⟨s, StoreChange.refl s, h⟩
    | some ch =>
      simp only [fillPlaces, writeChar_eq_next] at h
      obtain ⟨u, hu, hk⟩ := ih h.2
      exact ⟨u, (StoreChange.putWord h.1 _).trans hu, hk⟩

theorem anelexLoop_next {x y z n i d : Nat} (h : anelexLoop x y z n i d s = .next t) :
    ∃ u, StoreChange s u ∧ (u.skipDraws 1).advance = t := by
  induction n generalizing i d s with
  | zero => simp [anelexLoop] at h
  | succ n ih =>
    unfold anelexLoop at h
    split at h
    · simp at h
    · simp only [readChar_eq_next] at h
      replace h := h.2
      split at h
      · simp only [readChar_eq_next, writeWord_eq_next, nextOrder_eq_next, State.skipDraws_inst,
          State.putWord_skipDraws] at h
        exact ⟨_, StoreChange.putWord h.2.1 _, h.2.2⟩
      · split at h
        · simp only [readChar_eq_next] at h
          obtain ⟨u, hu, hk⟩ := fillPlaces_next h.2
          obtain ⟨v, hv, e⟩ := ih hk
          exact ⟨v, hu.trans hv, e⟩
        · simp only [writeChar_eq_next] at h
          obtain ⟨v, hv, e⟩ := ih h.2
          exact ⟨v, (StoreChange.putWord h.1 _).trans hv, e⟩

/-! ## The control orders -/

theorem exec87E_next (h : exec87E o s = .next t) : ∃ f, s.entryF = some f ∧
    t = (s.setW (updateW s f o.x (s.mem.read o.y.toNat))).leave
      (.leftBy87 (Config.normal87 o s)) := by
  simp only [exec87E, readWord_eq_next] at h
  replace h := h.2
  split at h
  · simp at h
  · rename_i f hf
    exact ⟨f, hf, (Host.Outcome.next.inj h).symm⟩

theorem exec23E_next (h : exec23E o s = .next t) :
    o.x.getLsbD 5 = false ∧ t = (s.actIndicators o.x).advance ∨ o.x.getLsbD 5 = true ∧
      t = ((s.actIndicators o.x).setOvr ((s.mem.read o.y.toNat).getLsbD 47)).leave
        .abandonedBy23E := by
  unfold exec23E at h
  split at h
  · simp at h
  · simp only at h
    split at h
    · rename_i hx
      simp only [readWord_eq_next, State.actIndicators_mem] at h
      exact .inr ⟨hx, (Host.Outcome.next.inj h.2).symm⟩
    · rename_i hx
      exact .inl ⟨by simpa using hx, (Host.Outcome.next.inj h).symm⟩

theorem exec107E_next (h : exec107E o s = .next t) :
    t = (s.setW (toAddr s.inst o.y.toNat)).advance := (Host.Outcome.next.inj h).symm

/-! ## The lockout and reservation orders -/

theorem exec20E_next (h : exec20E o s = .next t) : ∃ r,
    selectRegister s.inst o.y = .ok r ∧
    t = (loadRegister s r (s.mem.read o.x.toNat)).advance := by
  simp only [exec20E, readWord_eq_next, withRegister_eq_next, nextOrder_eq_next] at h
  obtain ⟨-, r, hr, e⟩ := h
  exact ⟨r, hr, e.symm⟩

theorem exec21E_next (h : exec21E o s = .next t) : ∃ r u,
    selectRegister s.inst o.y = .ok r ∧ StoreChange s u ∧
    t = (setOutOfAction (u.skipDraws 1) r o.y).advance := by
  simp only [exec21E, withRegister_eq_next, writeWord_eq_next, nextOrder_eq_next,
    State.skipDraws_inst, State.putWord_skipDraws] at h
  obtain ⟨r, hr, hx, e⟩ := h
  exact ⟨r, _, hr, StoreChange.putWord hx _, e.symm⟩

theorem testRegion_next {p : Nat} {kind : TestKind} (h : testRegion p kind o s = .next t) :
    ∃ u n, StoreChange s u ∧ t = (u.skipDraws n).advance := by
  simp only [testRegion, needZ_eq_next, readWord_eq_next] at h
  obtain ⟨z, -, -, -, h⟩ := h
  split at h
  · simp at h
  split at h
  · simp at h
  simp only [writeWord_eq_next, nextOrder_eq_next, State.skipDraws_inst,
    State.putWord_skipDraws] at h
  exact ⟨_, _, StoreChange.putWord h.1 _, h.2.symm⟩

/-! ## Orders that change only the store -/

theorem exec24E_next (h : exec24E o s = .next t) : ∃ u, StoreChange s u ∧ t = u.advance := by
  simp only [exec24E, readWord_eq_next, readWords_eq_next, writeWord_eq_next,
    nextOrder_eq_next] at h
  exact ⟨_, StoreChange.putWord h.2.2.1 _, h.2.2.2.symm⟩

theorem exec25E_next (h : exec25E o s = .next t) : ∃ u, StoreChange s u ∧ t = u.advance := by
  simp only [exec25E, readWords_eq_next, writeWord_eq_next, nextOrder_eq_next,
    State.putWord_inst] at h
  exact ⟨_, (((StoreChange.refl s).put h.2.1 _).put h.2.2.1 _).put h.2.2.2.1 _, h.2.2.2.2.symm⟩

theorem exec26E_next (h : exec26E o s = .next t) : ∃ u, StoreChange s u ∧ t = u.advance := by
  simp only [exec26E, readWords_eq_next, writeWord_eq_next, nextOrder_eq_next,
    State.putWord_inst] at h
  exact ⟨_, ((StoreChange.refl s).put h.2.1 _).put h.2.2.1 _, h.2.2.2.symm⟩

theorem exec27E_next (h : exec27E o s = .next t) :
    ∃ u, StoreChange s u ∧ t = (u.skipDraws 1).advance := by
  simp only [exec27E, needZ_eq_next] at h
  obtain ⟨z, -, h⟩ := h
  obtain ⟨u, hu, e⟩ := anelexLoop_next h
  exact ⟨u, hu, e.symm⟩

theorem exec140E_next (h : exec140E o s = .next t) : ∃ u, StoreChange s u ∧ t = u.advance := by
  simp only [exec140E, needZ_eq_next, readWord_eq_next] at h
  obtain ⟨z, -, -, -, h⟩ := h
  obtain ⟨u, hu, hk⟩ := placeBits_next h
  simp only [writeWord_eq_next, nextOrder_eq_next] at hk
  exact ⟨_, hu.trans (StoreChange.putWord hk.1 _), hk.2.symm⟩

theorem exec103E_next (h : exec103E o s = .next t) : ∃ u, StoreChange s u ∧ t = u.advance := by
  simp only [exec103E, needZ_eq_next, readWord_eq_next, writeWord_eq_next, nextOrder_eq_next] at h
  obtain ⟨z, -, -, -, -, hz, e⟩ := h
  exact ⟨_, StoreChange.putWord hz _, e.symm⟩

theorem transferOrder_next {p : Nat} {stop : Installation → Character → Bool}
    {k : Field15 → State → Nat → Result} (h : transferOrder p stop o s k = .next t) :
    ∃ z u c, StoreChange s u ∧ k z u c = .next t := by
  simp only [transferOrder, needZ_eq_next, readWord_eq_next] at h
  obtain ⟨z, -, -, -, -, h⟩ := h
  split at h
  · simp at h
  · obtain ⟨u, c, hu, hk⟩ := transfer_next h
    exact ⟨z, u, c, hu, hk⟩

theorem exec105E_next (h : exec105E o s = .next t) : ∃ u, StoreChange s u ∧ t = u.advance := by
  obtain ⟨z, u, c, hu, hk⟩ := transferOrder_next h
  exact ⟨u, hu, (nextOrder_eq_next.mp hk).symm⟩

theorem exec106E_next (h : exec106E o s = .next t) : ∃ u, StoreChange s u ∧ t = u.advance := by
  obtain ⟨z, u, c, hu, hk⟩ := transferOrder_next h
  simp only [writeWord_eq_next, nextOrder_eq_next] at hk
  exact ⟨_, hu.trans (StoreChange.putWord hk.1 _), hk.2.symm⟩

/-! ## 102E and 22E -/

theorem exec102E_next (h : exec102E o s = .next t) :
    ∃ u ov, StoreChange s u ∧ t = (u.raiseOvr ov).advance := by
  simp only [exec102E, needZ_eq_next, readWord_eq_next, writeWord_eq_next, nextOrder_eq_next] at h
  obtain ⟨z, -, -, -, hz, e⟩ := h
  exact ⟨_, _, StoreChange.putWord hz _, e.symm⟩

theorem exec22E_next (h : exec22E o s = .next t) : ∃ u, StoreChange s u ∧
    t = (sendControl o ((((u.emit (.generalRequest (requestChannels o.x))).emit
      (.busIn (busDollops s).1 (busDollops s).2)).takeReply).skipDraws 2)).advance := by
  simp only [exec22E, writeWord_eq_next, nextOrder_eq_next, State.skipDraws_inst,
    State.takeReply_inst, State.emit_inst, State.putWord_skipDraws, State.putWord_takeReply,
    State.putWord_emit] at h
  exact ⟨_, StoreChange.putWord h.1 _, h.2.symm⟩

/-! ## NORMAL -/

theorem execNormal_ne_next (active : Bool) (f : Function7) : execNormal active f o s ≠ .next t := by
  unfold execNormal
  split <;> simp

/-! ## All orders -/

/-- What an order can do to the state when it answers a next one. -/
inductive OrderChange (s : State) : Instr → State → Prop where
  | store {i : Instr} {u : State} (n : Nat) : StoreChange s u →
      OrderChange s i (u.skipDraws n).advance
  | card {o : Operands} {u : State} (ov : Bool) : StoreChange s u →
      OrderChange s (.op102E o) (u.raiseOvr ov).advance
  | bus {o : Operands} {u : State} : StoreChange s u →
      OrderChange s (.op22E o) (sendControl o
        ((((u.emit (.generalRequest (requestChannels o.x))).emit
          (.busIn (busDollops s).1 (busDollops s).2)).takeReply).skipDraws 2)).advance
  | load {o : Operands} {r : TesterRegister} : selectRegister s.inst o.y = .ok r →
      OrderChange s (.op20E o) (loadRegister s r (s.mem.read o.x.toNat)).advance
  | readBack {o : Operands} {r : TesterRegister} {u : State} : selectRegister s.inst o.y = .ok r →
      StoreChange s u →
      OrderChange s (.op21E o) (setOutOfAction (u.skipDraws 1) r o.y).advance
  | setW {o : Operands} :
      OrderChange s (.op107E o) (s.setW (toAddr s.inst o.y.toNat)).advance
  | indicate {o : Operands} : o.x.getLsbD 5 = false →
      OrderChange s (.op23E o) (s.actIndicators o.x).advance
  | abandon {o : Operands} : o.x.getLsbD 5 = true → OrderChange s (.op23E o)
      (((s.actIndicators o.x).setOvr ((s.mem.read o.y.toNat).getLsbD 47)).leave .abandonedBy23E)
  | jump {o : Operands} {f : Function7} : s.entryF = some f → OrderChange s (.op87E o)
      ((s.setW (updateW s f o.x (s.mem.read o.y.toNat))).leave
        (.leftBy87 (Config.normal87 o s)))
  | enter {i : Instr} : i.active = false → s.xcActive = false →
      (entryCause (i.order s.inst.code) s).isSome = true → entryLink < s.inst.storeSize →
      OrderChange s i (entered (i.order s.inst.code) s)

theorem OrderChange.storeOnly {i : Instr} {u : State} (h : StoreChange s u) (e : t = u.advance) :
    OrderChange s i t := e ▸ OrderChange.store 0 h

theorem OrderChange.ofEntering {i : Instr} {p : Nat} (ha : i.active = false)
    (hf : i.function s.inst.code = s.inst.code p) (h : obeyEntering p i.args s = .next t) :
    OrderChange s i t := by
  obtain ⟨hc, hx, hs, e⟩ := (obeyEntering_eq_next _ _).mp h
  rw [← hf] at hc e
  exact e ▸ .enter ha hx hc hs

/-- Every next state of an order is one of these. -/
theorem exec_next {i : Instr} (h : exec i s = .next t) : OrderChange s i t := by
  cases i with
  | op24E o => obtain ⟨u, hu, e⟩ := exec24E_next h; exact .storeOnly hu e
  | op25E o => obtain ⟨u, hu, e⟩ := exec25E_next h; exact .storeOnly hu e
  | op26E o => obtain ⟨u, hu, e⟩ := exec26E_next h; exact .storeOnly hu e
  | op103E o => obtain ⟨u, hu, e⟩ := exec103E_next h; exact .storeOnly hu e
  | op105E o => obtain ⟨u, hu, e⟩ := exec105E_next h; exact .storeOnly hu e
  | op106E o => obtain ⟨u, hu, e⟩ := exec106E_next h; exact .storeOnly hu e
  | op140E o => obtain ⟨u, hu, e⟩ := exec140E_next h; exact .storeOnly hu e
  | op27E o => obtain ⟨u, hu, e⟩ := exec27E_next h; exact e ▸ .store 1 hu
  | op125E o => obtain ⟨u, n, hu, e⟩ := testRegion_next h; exact e ▸ .store n hu
  | op127E o => obtain ⟨u, n, hu, e⟩ := testRegion_next h; exact e ▸ .store n hu
  | op102E o => obtain ⟨u, ov, hu, e⟩ := exec102E_next h; exact e ▸ .card ov hu
  | op22E o => obtain ⟨u, hu, e⟩ := exec22E_next h; exact e ▸ .bus hu
  | op20E o => obtain ⟨r, hr, e⟩ := exec20E_next h; exact e ▸ .load hr
  | op21E o => obtain ⟨r, u, hr, hu, e⟩ := exec21E_next h; exact e ▸ .readBack hr hu
  | op107E o => exact exec107E_next h ▸ .setW
  | op23E o =>
    obtain ⟨hx, e⟩ | ⟨hx, e⟩ := exec23E_next h
    · exact e ▸ .indicate hx
    · exact e ▸ .abandon hx
  | op87E o => obtain ⟨f, hf, e⟩ := exec87E_next h; exact e ▸ .jump hf
  | normal active f o => exact absurd h (execNormal_ne_next active f)
  | op102 o => exact .ofEntering rfl rfl h
  | op103 o => exact .ofEntering rfl rfl h
  | op125 o => exact .ofEntering rfl rfl h
  | op126 o => exact .ofEntering rfl rfl h
  | op140 o => exact .ofEntering rfl rfl h
  | op141 o => exact .ofEntering rfl rfl h
  | op142 o => exact .ofEntering rfl rfl h
  | op154 o => exact .ofEntering rfl rfl h
  | op155 o => exact .ofEntering rfl rfl h
  | op40 o => exact .ofEntering rfl rfl h
  | op41 o => exact .ofEntering rfl rfl h
  | op42 o => exact .ofEntering rfl rfl h
  | op43 o => exact .ofEntering rfl rfl h
  | op44 o => exact .ofEntering rfl rfl h
  | op45 o => exact .ofEntering rfl rfl h
  | op95 o => exact .ofEntering rfl rfl h
  | op101 o => exact .ofEntering rfl rfl h
  | op156 o => exact .ofEntering rfl rfl h

end Sys2Proof.Machine
end

