-- ==== Sys2Proof/Laws/PerInstr.lean ====
section
/-!
SUPPORT. For each constructor of Instr: its mode, F-bits and operands decode to it again, however
functions are spelled. The round trip through the record word adds only the bit fields of the record.
-/

namespace Sys2Proof.Laws.Encoding

/-! ## The rows of the opcode table -/

/-- The order of a row carries the row's mode and function, and the operands it is built from. -/
theorem row_sound : ∀ r ∈ opcodeRows, ∀ (code : Nat → Function7) (o : Operands),
    (r.build o).active = r.active ∧ (r.build o).function code = code r.printed ∧
    (r.build o).args = o ∧ (r.build o).wf code = true := by
  simp [opcodeRows, specialRows, enteringRows, Instr.active, Instr.function, Instr.args, Instr.wf]

/-- A row's function has a row of its own in its mode. -/
theorem row_listed : ∀ r ∈ opcodeRows, r.printed ∈ printedFunctions ∧
    (r.active = true → r.printed ∈ specialFunctions) ∧
    (r.active = false → r.printed ∈ enteringFunctions) := by
  simp [opcodeRows, specialRows, enteringRows, printedFunctions, specialFunctions,
    enteringFunctions]

/-- Every special function has a row while XC_ACTIVE, every entering one outside it. -/
theorem listed_row : (∀ p ∈ specialFunctions, ∃ r ∈ opcodeRows, r.active = true ∧ r.printed = p) ∧
    ∀ p ∈ enteringFunctions, ∃ r ∈ opcodeRows, r.active = false ∧ r.printed = p := by
  simp [opcodeRows, specialRows, enteringRows, specialFunctions, enteringFunctions]

/-- No two rows have the same mode and function. -/
theorem rows_nodup : (opcodeRows.map fun r => (r.active, r.printed)).Nodup := by decide

/-- Two printed functions that are spelled alike are one (log 1). -/
theorem printed_injective {code : Nat → Function7} (h : CodesDistinct code) {p q : Nat}
    (hp : p ∈ printedFunctions) (hq : q ∈ printedFunctions) (e : code p = code q) : p = q :=
  List.inj_on_of_nodup_map h hp hq e

/-! ## Searching the table -/

/-- What the search finds is a row of the table with that mode and spelling. -/
theorem matchingRow_some {code : Nat → Function7} {a : Bool} {f : Function7}
    {rows : List OpcodeRow} {r : OpcodeRow} (h : matchingRow code a f rows = some r) :
    r ∈ rows ∧ r.active = a ∧ code r.printed = f := by
  induction rows with
  | nil => cases h
  | cons r' rest ih =>
    simp only [matchingRow] at h
    split at h
    · rename_i hr
      cases h
      exact ⟨List.mem_cons_self, hr⟩
    · exact ⟨List.mem_cons_of_mem _ (ih h).1, (ih h).2⟩

/-- The search finds nothing only if no row has that mode and spelling. -/
theorem matchingRow_none {code : Nat → Function7} {a : Bool} {f : Function7}
    {rows : List OpcodeRow} (h : matchingRow code a f rows = none) :
    ∀ r ∈ rows, ¬ (r.active = a ∧ code r.printed = f) := by
  induction rows with
  | nil => simp
  | cons r' rest ih =>
    simp only [matchingRow] at h
    split at h
    · cases h
    · rename_i hr
      intro r hm
      obtain rfl | hm := List.mem_cons.mp hm
      · exact hr
      · exact ih h r hm

/-- The search finds the row that has that mode and function. -/
theorem matchingRow_of_mem {code : Nat → Function7} (hc : CodesDistinct code) {r : OpcodeRow}
    (h : r ∈ opcodeRows) : matchingRow code r.active (code r.printed) opcodeRows = some r := by
  cases hm : matchingRow code r.active (code r.printed) opcodeRows with
  | none => exact absurd ⟨rfl, rfl⟩ (matchingRow_none hm r h)
  | some r' =>
    obtain ⟨h', ha, hp⟩ := matchingRow_some hm
    have e := printed_injective hc (row_listed r' h').1 (row_listed r h).1 hp
    rw [List.inj_on_of_nodup_map rows_nodup h' h (Prod.ext ha e)]

/-- Decoding keeps the mode, the F-bits and the operands, and gives a well-formed order (R62). -/
theorem decodeOrder_sound (code : Nat → Function7) (a : Bool) (o : Order) :
    (decodeOrder code a o).active = a ∧ (decodeOrder code a o).function code = o.f ∧
    (decodeOrder code a o).args = o.args ∧ WellFormed code (decodeOrder code a o) := by
  unfold decodeOrder
  cases hm : matchingRow code a o.f opcodeRows with
  | some r =>
    obtain ⟨h, ha, hp⟩ := matchingRow_some hm
    obtain ⟨h1, h2, h3, h4⟩ := row_sound r h code o.args
    exact ⟨h1.trans ha, h2.trans hp, h3, h4⟩
  | none =>
    have hn := matchingRow_none hm
    refine ⟨rfl, rfl, rfl, ?_⟩
    cases a with
    | true =>
      refine decide_eq_true fun hf => ?_
      obtain ⟨p, hp, e⟩ := List.mem_map.mp hf
      obtain ⟨r, hr, ha, rfl⟩ := listed_row.1 p hp
      exact hn r hr ⟨ha, e⟩
    | false =>
      refine decide_eq_true fun hf => ?_
      obtain ⟨p, hp, e⟩ := List.mem_map.mp hf
      obtain ⟨r, hr, ha, rfl⟩ := listed_row.2 p hp
      exact hn r hr ⟨ha, e⟩

/-! ## Every order -/

/-- The mode, the F-bits and the operands of a well-formed order decode to that order, whatever the
FunctionCode. -/
def Statement (i : Instr) : Prop := ∀ code : Nat → Function7, CodesDistinct code →
  WellFormed code i → decodeOrder code i.active (i.order code) = i

/-- The order of a row of the table decodes to itself. -/
theorem of_row {r : OpcodeRow} (h : r ∈ opcodeRows) (o : Operands) : Statement (r.build o) := by
  intro code hc _
  obtain ⟨ha, hf, hargs, -⟩ := row_sound r h code o
  rw [decodeOrder, Instr.order, ha, hf, matchingRow_of_mem hc h, hargs]

theorem op87E (o : Operands) : Statement (.op87E o) :=
  of_row (r := ⟨true, 87, .op87E⟩) (by simp [opcodeRows, specialRows, enteringRows]) o
theorem op20E (o : Operands) : Statement (.op20E o) :=
  of_row (r := ⟨true, 20, .op20E⟩) (by simp [opcodeRows, specialRows, enteringRows]) o
theorem op21E (o : Operands) : Statement (.op21E o) :=
  of_row (r := ⟨true, 21, .op21E⟩) (by simp [opcodeRows, specialRows, enteringRows]) o
theorem op22E (o : Operands) : Statement (.op22E o) :=
  of_row (r := ⟨true, 22, .op22E⟩) (by simp [opcodeRows, specialRows, enteringRows]) o
theorem op23E (o : Operands) : Statement (.op23E o) :=
  of_row (r := ⟨true, 23, .op23E⟩) (by simp [opcodeRows, specialRows, enteringRows]) o
theorem op24E (o : Operands) : Statement (.op24E o) :=
  of_row (r := ⟨true, 24, .op24E⟩) (by simp [opcodeRows, specialRows, enteringRows]) o
theorem op25E (o : Operands) : Statement (.op25E o) :=
  of_row (r := ⟨true, 25, .op25E⟩) (by simp [opcodeRows, specialRows, enteringRows]) o
theorem op26E (o : Operands) : Statement (.op26E o) :=
  of_row (r := ⟨true, 26, .op26E⟩) (by simp [opcodeRows, specialRows, enteringRows]) o
theorem op27E (o : Operands) : Statement (.op27E o) :=
  of_row (r := ⟨true, 27, .op27E⟩) (by simp [opcodeRows, specialRows, enteringRows]) o
theorem op102E (o : Operands) : Statement (.op102E o) :=
  of_row (r := ⟨true, 102, .op102E⟩) (by simp [opcodeRows, specialRows, enteringRows]) o
theorem op103E (o : Operands) : Statement (.op103E o) :=
  of_row (r := ⟨true, 103, .op103E⟩) (by simp [opcodeRows, specialRows, enteringRows]) o
theorem op105E (o : Operands) : Statement (.op105E o) :=
  of_row (r := ⟨true, 105, .op105E⟩) (by simp [opcodeRows, specialRows, enteringRows]) o
theorem op106E (o : Operands) : Statement (.op106E o) :=
  of_row (r := ⟨true, 106, .op106E⟩) (by simp [opcodeRows, specialRows, enteringRows]) o
theorem op107E (o : Operands) : Statement (.op107E o) :=
  of_row (r := ⟨true, 107, .op107E⟩) (by simp [opcodeRows, specialRows, enteringRows]) o
theorem op125E (o : Operands) : Statement (.op125E o) :=
  of_row (r := ⟨true, 125, .op125E⟩) (by simp [opcodeRows, specialRows, enteringRows]) o
theorem op127E (o : Operands) : Statement (.op127E o) :=
  of_row (r := ⟨true, 127, .op127E⟩) (by simp [opcodeRows, specialRows, enteringRows]) o
theorem op140E (o : Operands) : Statement (.op140E o) :=
  of_row (r := ⟨true, 140, .op140E⟩) (by simp [opcodeRows, specialRows, enteringRows]) o
theorem op102 (o : Operands) : Statement (.op102 o) :=
  of_row (r := ⟨false, 102, .op102⟩) (by simp [opcodeRows, specialRows, enteringRows]) o
theorem op103 (o : Operands) : Statement (.op103 o) :=
  of_row (r := ⟨false, 103, .op103⟩) (by simp [opcodeRows, specialRows, enteringRows]) o
theorem op125 (o : Operands) : Statement (.op125 o) :=
  of_row (r := ⟨false, 125, .op125⟩) (by simp [opcodeRows, specialRows, enteringRows]) o
theorem op126 (o : Operands) : Statement (.op126 o) :=
  of_row (r := ⟨false, 126, .op126⟩) (by simp [opcodeRows, specialRows, enteringRows]) o
theorem op140 (o : Operands) : Statement (.op140 o) :=
  of_row (r := ⟨false, 140, .op140⟩) (by simp [opcodeRows, specialRows, enteringRows]) o
theorem op141 (o : Operands) : Statement (.op141 o) :=
  of_row (r := ⟨false, 141, .op141⟩) (by simp [opcodeRows, specialRows, enteringRows]) o
theorem op142 (o : Operands) : Statement (.op142 o) :=
  of_row (r := ⟨false, 142, .op142⟩) (by simp [opcodeRows, specialRows, enteringRows]) o
theorem op154 (o : Operands) : Statement (.op154 o) :=
  of_row (r := ⟨false, 154, .op154⟩) (by simp [opcodeRows, specialRows, enteringRows]) o
theorem op155 (o : Operands) : Statement (.op155 o) :=
  of_row (r := ⟨false, 155, .op155⟩) (by simp [opcodeRows, specialRows, enteringRows]) o
theorem op40 (o : Operands) : Statement (.op40 o) :=
  of_row (r := ⟨false, 40, .op40⟩) (by simp [opcodeRows, specialRows, enteringRows]) o
theorem op41 (o : Operands) : Statement (.op41 o) :=
  of_row (r := ⟨false, 41, .op41⟩) (by simp [opcodeRows, specialRows, enteringRows]) o
theorem op42 (o : Operands) : Statement (.op42 o) :=
  of_row (r := ⟨false, 42, .op42⟩) (by simp [opcodeRows, specialRows, enteringRows]) o
theorem op43 (o : Operands) : Statement (.op43 o) :=
  of_row (r := ⟨false, 43, .op43⟩) (by simp [opcodeRows, specialRows, enteringRows]) o
theorem op44 (o : Operands) : Statement (.op44 o) :=
  of_row (r := ⟨false, 44, .op44⟩) (by simp [opcodeRows, specialRows, enteringRows]) o
theorem op45 (o : Operands) : Statement (.op45 o) :=
  of_row (r := ⟨false, 45, .op45⟩) (by simp [opcodeRows, specialRows, enteringRows]) o
theorem op95 (o : Operands) : Statement (.op95 o) :=
  of_row (r := ⟨false, 95, .op95⟩) (by simp [opcodeRows, specialRows, enteringRows]) o
theorem op101 (o : Operands) : Statement (.op101 o) :=
  of_row (r := ⟨false, 101, .op101⟩) (by simp [opcodeRows, specialRows, enteringRows]) o
theorem op156 (o : Operands) : Statement (.op156 o) :=
  of_row (r := ⟨false, 156, .op156⟩) (by simp [opcodeRows, specialRows, enteringRows]) o

theorem normal (active : Bool) (f : Function7) (o : Operands) : Statement (.normal active f o) := by
  intro code _ h
  show decodeOrder code active ⟨f, o⟩ = _
  unfold decodeOrder
  cases hm : matchingRow code active f opcodeRows with
  | none => rfl
  | some r =>
    obtain ⟨hr, ha, hp⟩ := matchingRow_some hm
    obtain ⟨-, h1, h0⟩ := row_listed r hr
    cases active with
    | true => exact absurd (List.mem_map.mpr ⟨_, h1 ha, hp⟩) (of_decide_eq_true h)
    | false => exact absurd (List.mem_map.mpr ⟨_, h0 ha, hp⟩) (of_decide_eq_true h)

end Sys2Proof.Laws.Encoding
end

