-- ==== Sys2Proof/Laws/Testers.lean ====
section
/-!
SUPPORT. What the searches over the lockout testers find, and what the selecting literals select.
-/

namespace Sys2Proof.Machine

/-- A search over the lockout testers, by tester number. -/
theorem any_lockouts (s : State) (f : Lockout → Bool) :
    s.lockouts.toList.any f = true ↔ ∃ t : Fin 7, f (s.lockout t) = true := by
  rw [List.any_eq_true]
  constructor
  · rintro ⟨l, hl, hf⟩
    rw [Vector.mem_toList_iff] at hl
    obtain ⟨i, hi, rfl⟩ := Vector.mem_iff_getElem.1 hl
    exact ⟨⟨i, hi⟩, hf⟩
  · rintro ⟨t, ht⟩
    exact ⟨_, by rw [Vector.mem_toList_iff]; exact Vector.getElem_mem _, ht⟩

/-- The register a selecting literal of lockout tester t+1 selects (R90, R92). -/
theorem selectRegister_of_tester (c : Installation) (y : Half) (t : Fin 7)
    (h : testerNumber y = t.val + 1) : selectRegister c y = match testerSelector y with
      | 0 => .ok (.lkLower t)
      | 1 => .ok (.lkUpper t)
      | 2 => if hasCurrentAddress c t then .ok (.lkCurrent t)
             else .error (.noCurrentAddress (t.val + 1))
      | _ => .ok (.lkSW t) := by
  unfold selectRegister
  simp only [h]
  rw [if_neg (by omega), dif_pos (by omega)]
  rfl

/-- The address part of a word with an address put into it. -/
theorem toNat_putAddr (c : Installation) (w : Word) (a : Addr) (hb : c.addrBits ≤ 24) :
    (putAddr c w a).toNat % 2 ^ c.addrBits = a.toNat % 2 ^ c.addrBits := by
  apply Nat.eq_of_testBit_eq
  intro i
  rw [Nat.testBit_mod_two_pow, Nat.testBit_mod_two_pow]
  by_cases h : i < c.addrBits
  · simp only [h, decide_true, Bool.true_and]
    show (putAddr c w a).getLsbD i = a.getLsbD i
    rw [putAddr, getLsbD_putField _ _ _ _ (by omega), if_pos (by omega)]
    simp [h]
  · simp [h]

end Sys2Proof.Machine
end

