-- ==== Sys2Proof/Tests/Slice0.lean ====
section
/-!
SUPPORT. Tests. Expected values come from spec/: the opcode table, the encodings of 30_encoding.md
R60 to R71 (the places of the fields in the record word are the model's, log 3), and the vectors of
95_test_vectors.md, which are named in each test's comment. The witnesses at the end show, for every
obligation with hypotheses, operands and a state that meet all of them.
-/

namespace Sys2Proof.Tests

open Sys2Proof.Machine Sys2Proof.Claims

/-! ## Helpers -/

/-- A 3-address order's operands. -/
def o3 (x : Field15) (y : Half) (z : Field15) : Operands := ⟨x, y, some z⟩

/-- A 2-address order's operands. -/
def o2 (x : Field15) (y : Half) : Operands := ⟨x, y, none⟩

/-- The conventions of 95_test_vectors.md: unnamed bits of the entry words zero, J the register, the
candidates of ModPart and ColRow2. -/
def vectorInst : Installation :=
  { resetInstallation with
    link := .register
    modPart := .candidate
    colRow2 := .candidate
    entryFill := .zero
    nlCode := 0o12#6
    tabCode := 0o13#6
    ptCode := 0o14#6 }

/-- Outside XC_ACTIVE, with the given words in the store. -/
def outside (mem : Memory) : State := { State.reset with mem := mem, inst := vectorInst }

/-- In Extracode, entered by printed function p. -/
def inside (p : Nat) (mem : Memory) : State :=
  { outside mem with xcFF := true, entryF := some (functionCode p), pc := 517 }

/-- Something of the next state an order gives. -/
def look {α : Type} (r : Result) (f : State → α) : Option α :=
  match r with
  | .next t => some (f t)
  | .fault _ => none
  | .refused _ => none

/-- The refusal or the fault an order answers. -/
def stopOf (r : Result) : Option (Refusal ⊕ Fault) :=
  match r with
  | .next _ => none
  | .fault f => some (.inr f)
  | .refused f => some (.inl f)

/-- Some words of the next state. -/
def words (r : Result) (as : List Nat) : Option (List Word) :=
  look r fun t => as.map fun a => t.mem.read a

/-! ## Well-formedness: `normal` may not carry a function that has a row of its own -/

theorem test_wf_special_refused : ¬ WellFormed functionCode (.normal true 16#7 (o3 0 0 0)) := by
  decide
theorem test_wf_special_last_refused : ¬ WellFormed functionCode (.normal true 112#7 (o3 0 0 0)) := by
  decide
theorem test_wf_entering_refused : ¬ WellFormed functionCode (.normal false 32#7 (o2 0 0)) := by
  decide
theorem test_wf_entering_last_refused : ¬ WellFormed functionCode (.normal false 126#7 (o2 0 0)) := by
  decide
/-- 20 outside XC_ACTIVE and 126 inside it are NORMAL (VD1, VD7). -/
theorem test_wf_other_mode : WellFormed functionCode (.normal false 16#7 (o3 0 0 0)) ∧
    WellFormed functionCode (.normal true 102#7 (o3 0 0 0)) := by decide

/-! ## Decoding: every row of the opcode table by its match value, and no two rows match one key -/

theorem test_decode_87E : decodeTableWord 8 0xC7 = some (.op87E (o3 0 0 0)) := by decide
theorem test_decode_20E : decodeTableWord 8 0x90 = some (.op20E (o3 0 0 0)) := by decide
theorem test_decode_21E : decodeTableWord 8 0x91 = some (.op21E (o3 0 0 0)) := by decide
theorem test_decode_22E : decodeTableWord 8 0x92 = some (.op22E (o3 0 0 0)) := by decide
theorem test_decode_23E : decodeTableWord 8 0x93 = some (.op23E (o3 0 0 0)) := by decide
theorem test_decode_24E : decodeTableWord 8 0x94 = some (.op24E (o3 0 0 0)) := by decide
theorem test_decode_25E : decodeTableWord 8 0x95 = some (.op25E (o3 0 0 0)) := by decide
theorem test_decode_26E : decodeTableWord 8 0x96 = some (.op26E (o3 0 0 0)) := by decide
theorem test_decode_27E : decodeTableWord 8 0x97 = some (.op27E (o3 0 0 0)) := by decide
theorem test_decode_102E : decodeTableWord 8 0xD2 = some (.op102E (o3 0 0 0)) := by decide
theorem test_decode_103E : decodeTableWord 8 0xD3 = some (.op103E (o3 0 0 0)) := by decide
theorem test_decode_105E : decodeTableWord 8 0xD5 = some (.op105E (o3 0 0 0)) := by decide
theorem test_decode_106E : decodeTableWord 8 0xD6 = some (.op106E (o3 0 0 0)) := by decide
theorem test_decode_107E : decodeTableWord 8 0xD7 = some (.op107E (o3 0 0 0)) := by decide
theorem test_decode_125E : decodeTableWord 8 0xE5 = some (.op125E (o3 0 0 0)) := by decide
theorem test_decode_127E : decodeTableWord 8 0xE7 = some (.op127E (o3 0 0 0)) := by decide
theorem test_decode_140E : decodeTableWord 8 0xF0 = some (.op140E (o3 0 0 0)) := by decide
theorem test_decode_102 : decodeTableWord 8 0x52 = some (.op102 (o3 0 0 0)) := by decide
theorem test_decode_103 : decodeTableWord 8 0x53 = some (.op103 (o3 0 0 0)) := by decide
theorem test_decode_125 : decodeTableWord 8 0x65 = some (.op125 (o3 0 0 0)) := by decide
theorem test_decode_126 : decodeTableWord 8 0x66 = some (.op126 (o3 0 0 0)) := by decide
theorem test_decode_140 : decodeTableWord 8 0x70 = some (.op140 (o3 0 0 0)) := by decide
theorem test_decode_141 : decodeTableWord 8 0x71 = some (.op141 (o3 0 0 0)) := by decide
theorem test_decode_142 : decodeTableWord 8 0x72 = some (.op142 (o3 0 0 0)) := by decide
theorem test_decode_154 : decodeTableWord 8 0x7C = some (.op154 (o3 0 0 0)) := by decide
theorem test_decode_155 : decodeTableWord 8 0x7D = some (.op155 (o3 0 0 0)) := by decide
theorem test_decode_40 : decodeTableWord 8 0x20 = some (.op40 (o3 0 0 0)) := by decide
theorem test_decode_41 : decodeTableWord 8 0x21 = some (.op41 (o3 0 0 0)) := by decide
theorem test_decode_42 : decodeTableWord 8 0x22 = some (.op42 (o3 0 0 0)) := by decide
theorem test_decode_43 : decodeTableWord 8 0x23 = some (.op43 (o3 0 0 0)) := by decide
theorem test_decode_44 : decodeTableWord 8 0x24 = some (.op44 (o3 0 0 0)) := by decide
theorem test_decode_45 : decodeTableWord 8 0x25 = some (.op45 (o3 0 0 0)) := by decide
theorem test_decode_95 : decodeTableWord 8 0x4D = some (.op95 (o3 0 0 0)) := by decide
theorem test_decode_101 : decodeTableWord 8 0x51 = some (.op101 (o3 0 0 0)) := by decide
theorem test_decode_156 : decodeTableWord 8 0x7E = some (.op156 (o3 0 0 0)) := by decide
/-- VD1, VD7, VD8 and VD14: keys that no row but the catch-all matches. -/
theorem test_decode_normal :
    decodeTableWord 8 0x10 = some (.normal false 16#7 (o3 0 0 0)) ∧
    decodeTableWord 8 0xE6 = some (.normal true 102#7 (o3 0 0 0)) ∧
    decodeTableWord 8 0x67 = some (.normal false 103#7 (o3 0 0 0)) ∧
    decodeTableWord 8 0x98 = some (.normal true 24#7 (o3 0 0 0)) := by decide

/-- The rows of the opcode table with a mask of their own do not overlap. -/
theorem test_rows_distinct :
    (opcodeRows.map fun r => (r.active, functionCode r.printed)).Nodup := by decide

/-- The fields of R65 at their ends: X and Z 15 bits, Y 24. -/
theorem test_decode_fields :
    decodeTableWord 64 0x4001800001000290 = some (.op20E (o3 1 0x800001 0x4001)) ∧
    decodeTableWord 64 0x7FFFFFFFFFFFFEF0 = some (.op140E (o3 0x7FFF 0xFFFFFF 0x7FFF)) ∧
    decodeTableWord 64 0x0000FFFFFFFFFFF0 = some (.op140E (o2 0x7FFF 0xFFFFFF)) := by decide

/-- What is no record word is rejected by name. -/
theorem test_decode_rejects :
    decodeBytes functionCode [] = .error .wrongLength ∧
    decodeBytes functionCode (List.replicate 9 0#8) = .error .wrongLength ∧
    decodeBytes functionCode [0, 0, 0, 0, 0, 0, 0, 0x80] = .error .reservedBit ∧
    decodeBytes functionCode [0, 1, 0, 0, 0, 0, 1, 0] = .error .resultInTwoAddressForm := by decide

/-- Section 2.1: the seven-bit values of the printed functions. -/
theorem test_functionCode :
    [20, 27, 40, 45, 87, 95, 101, 102, 103, 105, 106, 107, 125, 126, 127, 140, 141, 142, 154, 155,
      156].map (fun p => (functionCode p).toNat) =
    [16, 23, 32, 37, 71, 77, 81, 82, 83, 85, 86, 87, 101, 102, 103, 112, 113, 114, 124, 125,
      126] := by decide

/-- VD3: the handkey alone selects the special effect. -/
theorem test_handkey_selects :
    decodeOrder functionCode { State.reset with xcKey := true }.xcActive
      ⟨functionCode 20, o2 0 0⟩ = .op20E (o2 0 0) := by decide

/-- An installation that spells 102 in the seven bits 0000001 (FunctionCode is open, R66). -/
def respelled : State := { outside [] with inst := { vectorInst with codes := [(102, 1#7)] } }

/-- R62, R66 and R147 with such a FunctionCode: what decodes to 102, and word 513. -/
theorem test_FunctionCode_open :
    decodeOrder respelled.inst.code false ⟨1#7, o2 0 0⟩ = .op102 (o2 0 0) ∧
    decodeOrder respelled.inst.code false ⟨82#7, o2 0 0⟩ = .normal false 82#7 (o2 0 0) ∧
    words (exec (.op102 (o3 5 0x123 7)) respelled) [513] = some [0x400000800000] := by decide

/-! ## Entry to Extracode (2.2) -/

/-- VE1 -/
theorem test_102 :
    words (exec (.op102 (o3 5 0x123 7)) { outside [] with ovr := true, j := 0x64 })
      [512, 513, 514, 515, 516] =
    some [0x5, 0x800010800004, 0x123, 0x7, 0x800000000064] := by decide

/-- VE1: mode, ENTRY_F, pc -/
theorem test_102_mode :
    look (exec (.op102 (o3 5 0x123 7)) (outside [])) (fun t => (t.xcFF, t.entryF, t.pc)) =
      some (true, some 82#7, 517) := by decide

/-- 103 and the scattering of F7 = 83 = 1010011 -/
theorem test_103 : words (exec (.op103 (o2 1 2)) (outside [])) [512, 513, 515] =
    some [1, 0xC00010000004, 1] := by decide

/-- 125: F7 = 101 = 1100101 -/
theorem test_125 : words (exec (.op125 (o3 1 2 3)) (outside [])) [513, 515] =
    some [0x400010800009, 3] := by decide

/-- 126 (VD6): F7 = 102 = 1100110 -/
theorem test_126 : words (exec (.op126 (o3 1 2 3)) (outside [])) [513] =
    some [0x800010800009] := by decide

/-- VE2 -/
theorem test_140 :
    words (exec (.op140 (o3 0o100 0o2000 0o101))
      { outside [] with opt := { State.reset.opt with engineersMode := true } })
      [512, 513, 514, 515, 516] =
    some [0x800000000040, 0x00001080000C, 0x400, 0x41, 0] := by decide

/-- 141, the first of a pair: bit 47 of word 515 clear; F7 = 113 = 1110001 -/
theorem test_141 : words (exec (.op141 (o3 1 2 3)) (outside [])) [513, 515] =
    some [0x40001080000C, 3] := by decide

/-- VE3 -/
theorem test_142 :
    words (exec (.op142 (o3 1 2 3))
      { outside [] with opt := { State.reset.opt with monOnFpOvr := true } })
      [512, 513, 514, 515, 516] =
    some [1, 0x80001080000C, 2, 0xC00000000003, 0] := by decide

/-- 154, the second of a pair: F7 = 124 = 1111100 -/
theorem test_154 : words (exec (.op154 (o3 1 2 3)) (outside [])) [513, 515] =
    some [0x00001080000F, 0x800000000003] := by decide

/-- VE4 -/
theorem test_155 :
    words (exec (.op155 (o2 0x7FFF 0xFFFFFF))
      { outside [] with
        ovr := true
        j := 0xABCDE
        opt := { State.reset.opt with fpUnrounded := true, monOnOvr := true } })
      [512, 513, 514, 515, 516] =
    some [0x7FFF, 0x40001000000F, 0xC00000FFFFFF, 0x800000007FFF, 0x8000000ABCDE] := by decide

/-- A state whose installation says that a division's quotient appears out of range, or not. -/
def dividing (p : Nat) (o : Operands) (b : Bool) : State :=
  { outside [] with inst := { vectorInst with quotient := [(⟨functionCode p, o⟩, b)] } }

/-- A state whose installation says that an order's operands need help, or do not. -/
def helping (p : Nat) (o : Operands) (b : Bool) : State :=
  { outside [] with inst := { vectorInst with help := [(⟨functionCode p, o⟩, b)] } }

/-- VE5 -/
theorem test_44 : words (exec (.op44 (o2 9 0x400)) (dividing 44 (o2 9 0x400) true))
    [512, 513, 514, 515, 516] = some [9, 9, 0x400, 9, 0] := by decide

/-- VD12: the other divisions, ENTRY_F as in the table of 2.1 -/
theorem test_divisions_enter :
    look (exec (.op40 (o2 1 2)) (dividing 40 (o2 1 2) true)) (·.entryF) = some (some 32#7) ∧
    look (exec (.op41 (o2 1 2)) (dividing 41 (o2 1 2) true)) (·.entryF) = some (some 33#7) ∧
    look (exec (.op42 (o2 1 2)) (dividing 42 (o2 1 2) true)) (·.entryF) = some (some 34#7) ∧
    look (exec (.op43 (o2 1 2)) (dividing 43 (o2 1 2) true)) (·.entryF) = some (some 35#7) ∧
    look (exec (.op45 (o2 1 2)) (dividing 45 (o2 1 2) true)) (·.entryF) = some (some 37#7) := by
  decide

/-- VD13 -/
theorem test_42_normal : stopOf (exec (.op42 (o2 1 2)) (dividing 42 (o2 1 2) false)) =
    some (.inl (.normalOrder 34#7)) := by decide

theorem test_helped_enter :
    look (exec (.op95 (o2 1 2)) (helping 95 (o2 1 2) true)) (·.entryF) = some (some 77#7) ∧
    look (exec (.op101 (o2 1 2)) (helping 101 (o2 1 2) true)) (·.entryF) = some (some 81#7) := by
  decide

/-- VE6 -/
theorem test_156 :
    words (exec (.op156 (o3 1 2 3))
      { outside [] with opt := { State.reset.opt with monitoringMode := true } })
      [512, 513, 514, 515, 516] =
    some [0x800000000001, 0x80001080000F, 2, 3, 0] := by decide

/-- VD10 -/
theorem test_156_normal :
    stopOf (exec (.op156 (o3 1 2 3)) (outside [])) = some (.inl (.normalOrder 126#7)) := by
  decide

/-- VD7 -/
theorem test_nested_entry : stopOf (exec (.normal true 102#7 (o3 1 2 3)) (inside 102 [])) =
    some (.inl .nestedEntry) := by decide

/-- VD1, VD8 and VD14 -/
theorem test_normal :
    stopOf (exec (.normal false 16#7 (o3 1 2 3)) (outside [])) = some (.inl (.normalOrder 16#7)) ∧
    stopOf (exec (.normal false 103#7 (o3 1 2 3)) (outside [])) = some (.inl (.normalOrder 103#7)) ∧
    stopOf (exec (.normal true 24#7 (o3 1 2 3)) (inside 102 [])) =
      some (.inl (.normalOrder 24#7)) := by
  decide

/-! ## 87E, 23E, 107E (2.3) -/

/-- VC1 to VC4 -/
theorem test_87E :
    [102, 140, 141, 142].map (fun p => look
      (exec (.op87E (o2 100 40)) { inside p [(40, 5)] with w := 7 }) fun t =>
        (t.w, t.xcFF, t.entryF, t.leaving.isSome)) =
    [105#24, 7#24, 7#24, 105#24].map fun w =>
      some (w, false, none, true) := by decide

/-- VC5 to VC7 -/
theorem test_87E_edges :
    look (exec (.op87E (o2 0x7FFF 40)) (inside 102 [(40, 0xFFFFFFFFFFFF)])) (·.w) =
      some 0x007FFE#24 ∧
    stopOf (exec (.op87E (o2 1 40)) { outside [] with xcKey := true }) =
      some (.inl .noEntryRecorded) ∧
    stopOf (exec (.op87E (o2 1 32768)) (inside 102 [])) =
      some (.inr (.storeBound 32768)) := by decide

/-- VC8 to VC13: the indicators in the order program fail, peripheral incident, peripheral lockout,
requirement set -/
theorem test_23E_indicators :
    look (exec (.op23E (o2 9 0)) (inside 102 [])) (fun t => (t.ind, t.pc, t.xcFF)) =
      some (⟨true, false, false, true⟩, 518, true) ∧
    look (exec (.op23E (o2 0b010000 0))
      { inside 102 [] with ind := ⟨true, true, true, true⟩ }) (·.ind) =
      some ⟨true, false, true, true⟩ ∧
    look (exec (.op23E (o2 0b000110 0)) (inside 102 [])) (·.ind) =
      some ⟨false, true, true, false⟩ ∧
    stopOf (exec (.op23E (o2 0b010010 0)) (inside 102 [])) = some (.inl .setAndReset) ∧
    look (exec (.op23E (o2 0x7FC0 0)) (inside 102 [])) (·.ind) =
      some ⟨false, false, false, false⟩ := by decide

/-- VC14 to VC17 -/
theorem test_23E_leaves :
    look (exec (.op23E (o2 33 516)) { inside 102 [(516, 0x800000000123)] with w := 7 })
      (fun t => (t.ovr, t.w, t.xcFF, t.leaving, t.ind.programFail)) =
      some (true, 7#24, false, some .abandonedBy23E, true) ∧
    look (exec (.op23E (o2 32 516)) { inside 102 [(516, 0x123)] with ovr := true }) (·.ovr) =
      some false ∧
    stopOf (exec (.op23E (o2 32 32768)) (inside 102 [])) = some (.inr (.storeBound 32768)) := by
  decide

/-- VC18 and VC19 -/
theorem test_107E :
    look (exec (.op107E (o2 0 1000)) { inside 102 [] with w := 7 }) (fun t => (t.w, t.pc)) =
      some (1000#24, 518) ∧
    look (exec (.op107E (o2 0 0xFFFFFF))
      { inside 102 [] with inst := { vectorInst with addrBits := 15 } }) (·.w) =
      some 0x7FFF#24 := by decide

/-! ## 20E, 21E, 125E, 127E (2.4) -/

/-- V20.1 to V20.4 -/
theorem test_20E_lockout :
    look (exec (.op20E (o2 8 0x01)) (inside 102 [(8, 100)])) (fun t =>
      ((t.lockout 0).lower, (t.lockout 0).active)) = some (100#24, false) ∧
    look (exec (.op20E (o2 9 0x31)) (inside 102 [(9, 1)])) (fun t => (t.lockout 0).sw) =
      some true ∧
    look (exec (.op20E (o2 8 0x13)) (inside 102 [(8, 0x1234)])) (fun t =>
      ((t.lockout 2).upper, (t.lockout 2).active, (t.lockout 0).active)) =
      some (0x1234#24, true, false) := by decide

/-- V20.5 to V20.7 -/
theorem test_20E_reservation :
    look (exec (.op20E (o2 8 0x00)) (inside 102 [(8, 0x10FF)])) (fun t => t.res.lower) =
      some 0x10C0#24 ∧
    look (exec (.op20E (o2 8 0x10)) (inside 102 [(8, 0x2000000010FF)])) (fun t =>
      (t.res.upper, t.res.sw)) = some (0x10FF#24, true) := by decide

/-- The testers of section 2.4: tester 1 locks out 100 to 200, is strong and in action; 0 to 32767
are permitted. -/
def testers (mem : Memory) : State :=
  { inside 125 mem with
    res := ⟨0, 32767, false⟩
    lockouts := State.reset.lockouts.set 0 ⟨100, 200, 0, true, true⟩ }

/-- Program P2, steps 5 and 6: Y6 = 1 keeps the tester in action, Y6 = 0 takes it out -/
theorem test_21E :
    look (exec (.op21E (o2 14 0x51)) (testers [])) (fun t => (t.lockout 0).active) = some true ∧
    look (exec (.op21E (o2 15 0x01)) (testers [])) (fun t => (t.lockout 0).active) = some false ∧
    (readBackWord (testers []) (.lkUpper 0) 0xFFFFFFFFFFFF).extractLsb' 0 24 = 200#24 := by decide

/-- V125.1 to V125.3: the region fails, and what is reported for a free value -/
theorem test_lockout_reported :
    lockoutFailure (testers []) .strong 150 160 = true ∧
    reportedAddress (testers []) .strong 150 160 21 = 160 ∧
    reportedAddress (testers []) .strong 150 150 77 = 150 ∧
    reportedAddress (testers []) .strong 190 210 20 = 190 ∧
    reportedAddress (testers []) .strong 190 210 10 = 200 := by decide

/-- V125.4 and V125.5 -/
theorem test_125E :
    words (exec (.op125E (o3 11 12 13)) (testers [(11, 201), (12, 300), (13, 7)])) [13] =
      some [0] ∧
    words (exec (.op125E (o3 11 12 13)) (testers [(11, 0o77770), (12, 0o100010), (13, 7)])) [13] =
      some [0x800000000000] := by decide

/-- V125.7 and V125.8 -/
theorem test_125E_refused :
    stopOf (exec (.op125E (o3 11 12 13)) (testers [(11, 0x000001000096), (12, 0xA0)])) =
      some (.inl .regionTopHalves) ∧
    stopOf (exec (.op125E (o3 11 12 13)) (testers [(11, 160), (12, 150)])) =
      some (.inl .emptyRegion) := by
  decide

/-- V127.2 (the weak test does not count the lockout), V127.3, and V127.1's failure -/
theorem test_127E :
    words (exec (.op127E (o3 11 12 13))
      { testers [(11, 150), (12, 160), (13, 7)] with
        inst := { vectorInst with applies := .candidate false } }) [13] = some [0] ∧
    words (exec (.op127E (o3 11 12 13)) (testers [(11, 0o77770), (12, 0o100010)])) [13] =
      some [0x800000000000] ∧
    lockoutFailure (testers []) .weak 150 160 = true := by decide

/-! ## 22E (2.5) -/

/-- V22.1 and V22.2: the events -/
theorem test_22E_bus :
    look (exec (.op22E (o3 0x25 0xFFF 40)) { inside 102 [] with replies := [.two 0xABC 0x123] })
      (fun t => (t.bus, t.replies)) =
      some ([.generalRequest 0x125, .busIn 0xABC 0x123, .controlDollop 0xFFF], []) ∧
    look (exec (.op22E (o2 0x7FFF 0xABCDEF)) { inside 102 [] with replies := [.one 1] })
      (·.bus) = some [.generalRequest 0x1FF, .busIn 1 1] := by decide

/-- V22.1: the dollops in the two lower quarters -/
theorem test_22E_word : replyWord 0xABC 0x123 0xFFFFFF000000 = 0xFFFFFF123ABC#48 := by decide

/-! ## 24E, 25E, 26E (2.6) -/

/-- Table T1 -/
def tableT1 : Memory :=
  [(0o200, 0o0102030405060710), (0o201, 0o1112131415161720), (0o202, 0o2122232425262730),
   (0o203, 0o3132333435363740), (0o204, 0o4142434445464750), (0o205, 0o5152535455565760),
   (0o206, 0o6162636465666770), (0o207, 0o7172737475767700)]

/-- V24.1 and V24.4 -/
theorem test_24E :
    words (exec (.op24E (o3 0o100 0o200 0o101))
      (inside 102 ((0o100, 0o0001071037407677) :: tableT1))) [0o100, 0o101] =
      some [0o0001071037407677, 0o0102101140417700] ∧
    words (exec (.op24E (o2 0o100 0o200))
      (inside 102 ((0o100, 0o0001071037407677) :: tableT1))) [0o100] =
      some [0o0102101140417700] := by decide

/-- V24.5 and V24.6 -/
theorem test_24E_edges :
    words (exec (.op24E (o3 0o100 0o200 0o200)) (inside 102 tableT1)) [0o200] =
      some [0o0101010101010101] ∧
    stopOf (exec (.op24E (o3 0o100 32764 0o101)) (inside 102 [])) =
      some (.inr (.storeBound 32764)) := by
  decide

/-- V25.10 -/
theorem test_25E :
    words (exec (.op25E (o2 8 16))
      (inside 102 [(8, 0x123456789ABC), (9, 0xDEF012345678), (10, 0x9ABCDEF01234)]))
      [16, 17, 18, 20] =
      some [0x43C1E9399339, 0, 0x0F4B5A99CC99, 0x5AD0F064CE64] := by decide

/-- V25.2 and V25.11 -/
theorem test_25E_edges :
    words (exec (.op25E (o2 8 16)) (inside 102 [(8, 0x400000000000)])) [16, 18, 20] =
      some [0x800000, 0, 0] ∧
    stopOf (exec (.op25E (o2 32766 0)) (inside 102 [])) =
      some (.inr (.storeBound 32766)) := by decide

/-- V26.1 and V26.3 -/
theorem test_26E :
    words (exec (.op26E (o2 8 16)) (inside 102 [(8, 0xAAAAAABBBBBB), (9, 0xCCCCCCDDDDDD)]))
      [16, 17] = some [0xAAAAAACCCCCC, 0xBBBBBBDDDDDD] ∧
    stopOf (exec (.op26E (o2 32767 0)) (inside 102 [])) =
      some (.inr (.storeBound 32767)) := by decide

/-! ## 27E, 140E (2.7) -/

/-- V27.3, with the max number of passes made small -/
def printing : State :=
  { inside 102 [(0o201, 0o0102031277000000)] with inst := { vectorInst with max27 := 8 } }

theorem test_27E :
    words (exec (.op27E (o3 0o100 0o200 0o300)) printing) [0o100] =
      some [0o0102030000000000] ∧
    pairWord 0o12 0o77 0xFFFFFFFFF000 = 0xFFFFFFFFF2BF#48 := by decide

/-- R114: MAX27 characters without NL or PT; V27.1 -/
theorem test_27E_refused :
    stopOf (exec (.op27E (o3 0o100 0o200 0o300))
      { inside 102 [] with inst := { vectorInst with max27 := 4 } }) =
      some (.inl .unterminated27E) ∧
    stopOf (exec (.op27E (o2 0o100 0o200)) printing) = some (.inl (.twoAddressForm 27)) := by decide

/-- V140.1 -/
theorem test_140E :
    words (exec (.op140E (o3 0o100 0o3000 0o102))
      (inside 102 [(0o100, 0x042040000000), (0o102, 0x800000000000)]))
      [0o3000, 0o3003, 0o3006, 0o102] =
      some [0x1F0000000000, 0xA00000000000, 0x400000000000, 0x008000000000] := by decide

/-- V140.3, with an image word that is kept -/
theorem test_140E_end :
    words (exec (.op140E (o3 0o100 0o3000 0o102))
      (inside 102 [(0o100, 0o0504030201000102), (0o102, 8), (0o3017, 1)]))
      [0o3017, 0o3014, 0o3011, 0o3006, 0o3003, 0o102] = some [9, 4, 2, 1, 0, 0] := by decide

/-! ## 102E, 103E (2.8) -/

/-- V102.1 -/
theorem test_102E :
    look (exec (.op102E (o3 8 9 10))
      (inside 102 [(8, 0o0300000000000000), (9, 0o0700000077000000)])) (·.ovr) = some true ∧
    vChar vectorInst 0o0300000000000000 0o0700000077000000 0 = 0#6 ∧
    manyHoles 0o0300000000000000 0o0700000077000000 0 = true := by decide

/-- V102.3 and V102.4 -/
theorem test_102E_ovr :
    look (exec (.op102E (o3 8 9 10)) (inside 102 [(9, 0o0700000077000000)])) (·.ovr) =
      some false ∧
    look (exec (.op102E (o3 8 9 10))
      { inside 102 [(9, 0o0700000077000000)] with ovr := true }) (·.ovr) = some true := by decide

/-- V103.2 and V103.3 -/
theorem test_103E :
    rot24 0x800000000001 = 0x000001800000#48 ∧
    look (exec (.op103E (o3 8 9 10)) { inside 102 [] with ovr := true })
      (fun t => (t.ovr, t.pc)) = some (true, 518) ∧
    stopOf (exec (.op103E (o2 8 9)) (inside 102 [])) =
      some (.inl (.twoAddressForm 103)) := by decide

/-! ## 105E, 106E (2.9) -/

/-- The store of section 2.9 with the operands at 8, 9 and 10. -/
def transferring (p q r : Word) : State :=
  inside 102 (Memory.write [(8, p), (9, q), (0o1000, 0o0102030405060710),
    (0o1001, 0o1112131415161720), (0o2000, 0o7777777777777777), (0o2001, 0o7777777777777777),
    (0o2002, 0o7777777777777777)] 10 r)

/-- V105.1 and V105.3 -/
theorem test_105E :
    words (exec (.op105E (o3 8 9 10)) (transferring 0x400000000200 0xC00000000400 3))
      [0o2000, 0o2001, 0o2002] =
      some [0o7777777777770304, 0o0500000000000000, 0o7777777777777777] ∧
    words (exec (.op105E (o3 8 9 10)) (transferring 0xA00000000200 0xE00000000400 10))
      [0o2000, 0o2001, 0o2002] =
      some [0o7777777777777706, 0o0710111213141516, 0o1700000000000000] := by decide

/-- V105.6 and V105.7 -/
theorem test_105E_edges :
    words (exec (.op105E (o3 8 9 10)) (transferring 0x200 0x200000000200 4)) [0o1000] =
      some [0o0101010101000000] ∧
    stopOf (exec (.op105E (o3 8 9 10)) (transferring 0x200 0x400 0x800000000000)) =
      some (.inl .negativeCount) := by decide

/-- The same with NL as character 2 of word N. -/
def transferringNL (p q r : Word) : State :=
  { transferring p q r with
    mem := (transferring p q r).mem.write 0o1000 0o0102120405060710 }

/-- V106.1 and V106.2 -/
theorem test_106E :
    words (exec (.op106E (o3 8 9 10)) (transferringNL 0x200 0x400 10)) [0o2000, 0o2001, 10] =
      some [0o0102120000000000, 0o7777777777777777, 3] ∧
    words (exec (.op106E (o3 8 9 10)) (transferringNL 0x600000000200 0x400 4)) [0o2000, 10] =
      some [0o0405060700000000, 4] := by decide

/-- V106.3 and V106.4 -/
theorem test_106E_edges :
    words (exec (.op106E (o3 8 9 10)) (transferringNL 0x400000000200 0xE00000000400 5))
      [0o2000, 0o2001, 10] = some [0o7777777777777712, 0o7777777777777777, 1] ∧
    words (exec (.op106E (o3 8 9 10)) (transferringNL 0x200 0x400 0)) [0o2000, 10] =
      some [0o7777777777777777, 0] := by decide

/-! ## The step -/

/-- R101 to R103 aside, the outside acts before the order: the handkey of R14 turns 20 into 20E. -/
def keyed : State :=
  { outside [(0, 5), (8, 0x1234)] with
    inputs := [.handkey true]
    inst := { vectorInst with decode := [(5, ⟨functionCode 20, o2 8 0x13⟩)] } }

theorem test_step_takes_inputs :
    look (step keyed) (fun t => ((t.lockout 2).upper, t.pc, t.xcKey)) =
      some (0x1234#24, 1, true) := by decide

/-- R158, R80: an order that has left Extracode is completed before the outside is attended to. -/
theorem test_step_completes_leaving :
    look (step { keyed with leaving := some (.leftBy87 ⟨false, 9, 8, true, [(7, 6)]⟩) })
      (fun t => (t.pc, t.ovr, t.mem.read 7, t.xcKey, t.leaving.isSome)) =
      some (9, true, 6, false, false) := by decide

/-- R50: a peripheral transfer reaches words 100 to 200 of tester 1's region and no others. -/
def transferred : State :=
  { testers [] with inputs := [.transfer 0 150 7, .transfer 0 99 7, .transfer 1 150 8] }

theorem test_transfer_confined :
    ([99, 150].map (takeInputs transferred).mem.read) = [0, 7] := by decide

/-! ## Witnesses: operands and a state that meet the hypotheses of each obligation -/

theorem witness_DecodeEncodeAgree : CodesDistinct functionCode ∧
    WellFormed functionCode (.normal true 127#7 (o3 0x7FFF 0xFFFFFF 0x7FFF)) ∧
    WellFormed functionCode (.op140E (o2 0 0)) := by decide

theorem witness_EncodeDecodeAgree :
    decodeBytes functionCode [0xF0, 0xFE, 0xFF, 0xFF, 0xFF, 0xFF, 0xFF, 0x7F] =
      .ok (.op140E (o3 0x7FFF 0xFFFFFF 0x7FFF)) := by decide

theorem witness_FunctionNumbers : (15 < 16 ∧ 7 < 8) ∧ (0 < 16 ∧ 0 < 8) ∧
    (∀ e ∈ respelled.inst.codes, e.1 ≠ 103) ∧ respelled.inst.codes = (102, 1#7) :: [] := by decide

/-- XC_ACTIVE by the handkey alone; and the last address of the store, the first outside it. -/
theorem witness_StepObeysDecodedOrder :
    (keyed.faulted = none ∧ keyed.refusedMark = none ∧ keyed.leaving = none ∧
      InStore (takeInputs keyed) (takeInputs keyed).pc ∧
      (takeInputs keyed).xcFF = false ∧ (takeInputs keyed).xcKey = true ∧
      listedOrder ((takeInputs keyed).mem.read (takeInputs keyed).pc)
        (takeInputs keyed).inst.decode = some ⟨functionCode 20, o2 8 0x13⟩) ∧
    (takeInputs { outside [] with pc := 32767 }).pc = 32767 ∧
    InStore (takeInputs { outside [] with pc := 32767 }) 32767 ∧
    (takeInputs { outside [] with pc := 32768 }).pc = 32768 ∧
    ¬ InStore (takeInputs { outside [] with pc := 32768 }) 32768 := by decide

theorem witness_MarksAreSticky :
    { State.reset with faulted := some (.storeBound 9) }.faulted = some (.storeBound 9) ∧
    { State.reset with refusedMark := some .nestedEntry }.faulted = none ∧
    { State.reset with refusedMark := some .nestedEntry }.refusedMark = some .nestedEntry :=
  ⟨rfl, rfl, rfl⟩

/-- A state that has just left Extracode, in either way. -/
def left (l : Leaving) : State := { outside [] with leaving := some l }

theorem witness_LeavingGoesOn :
    ∀ l ∈ [Leaving.leftBy87 ⟨false, 9, 8, true, [(7, 6)]⟩, .abandonedBy23E],
      (left l).inst.addrBits ≤ 24 ∧ (left l).faulted = none ∧ (left l).refusedMark = none ∧
      (left l).leaving = some l ∧ (left l).mem.wf = true ∧ ¬ InStore (left l) 32768 := by decide

theorem witness_PlacedOrderRuns : State.reset.mem.wf = true ∧ InStore State.reset 0 ∧
    CodesDistinct State.reset.inst.code ∧
    WellFormed State.reset.inst.code (.op107E (o3 0 0 0)) ∧
    decodeTableWord 8 0xD7 = some (.op107E (o3 0 0 0)) := by decide

theorem witness_OutsideIsConfined : transferred.mem.wf = true ∧
    (takeInputs transferred).mem.read 150 ≠ transferred.mem.read 150 := by decide

/-- A state of the invariant whose next step is 107E. -/
def ready : State := State.reset.withFetchWord 8 0xD7

theorem witness_StepKeepsInvariant : ready.Inv ∧ ∃ t, step ready = .next t :=
  ⟨⟨by decide, by decide, by decide, by decide, by decide, by decide, by decide, by decide,
    by decide, by decide, by decide,
    by
      intro f h
      have e : f = functionCode 102 := (Option.some.inj h).symm
      subst e
      decide,
    by
      intro e h
      exact absurd h (List.not_mem_nil),
    by decide⟩, _, rfl⟩

theorem witness_CanonicalStoresAreEqual : Memory.wf [(1, 1)] = true ∧ Memory.wf [] = true := by
  decide

/-- Some state in which every special order completes: no operand is outside the store. -/
def any : State :=
  { testers [(40, 5)] with inst := { vectorInst with max27 := 8, nlCode := 0 } }

/-- Every special order answers a next state somewhere. -/
theorem witness_special_orders_complete : ∀ i ∈ [Instr.op87E (o3 1 2 3), .op20E (o3 1 1 3),
    .op21E (o3 1 1 3), .op22E (o3 1 2 3), .op23E (o3 1 2 3), .op23E (o3 33 2 3),
    .op24E (o3 1 2 3), .op25E (o3 1 2 3), .op26E (o3 1 2 3), .op27E (o3 1 2 3),
    .op102E (o3 1 2 3), .op103E (o3 1 2 3), .op105E (o3 1 2 3), .op106E (o3 1 2 3),
    .op107E (o3 1 2 3), .op125E (o3 1 2 3), .op127E (o3 1 2 3), .op140E (o3 1 2 3)],
    (look (exec i any) fun _ => true) = some true := by decide

/-- An order that enters Extracode answers a next state. -/
theorem witness_rules_over_all_orders : (outside []).mem.wf = true ∧
    (∃ t, exec (.op102 (o3 1 2 3)) (outside []) = .next t) ∧
    ¬ InStore (outside []) 32768 := ⟨rfl, ⟨_, rfl⟩, by decide⟩

theorem witness_JumpLeavesExtracode : ∀ p ∈ [102, 140, 141],
    (inside p [(40, 5)]).inst.addrBits ≤ 24 ∧ InStore (inside p [(40, 5)]) (40#24).toNat ∧
    (inside p [(40, 5)]).entryF = some (functionCode p) ∧
    (inside p [(40, 5)]).inst.modPart = .candidate := by decide

theorem witness_JumpNeedsRecordedEntry :
    (inside 102 []).entryF.isSome = true ∧ ¬ InStore (inside 102 []) (32768#24).toNat ∧
    (outside []).entryF = none ∧ InStore (outside []) (32767#24).toNat ∧
    ¬ InStore (outside []) (32768#24).toNat := by decide

theorem witness_JumpOverwritesW : ∀ p ∈ [102, 140, 141],
    (inside p []).inst.addrBits ≤ 24 ∧ (inside p []).entryF = some (functionCode p) ∧
    (1#15).toNat + (modPart (inside p []).inst ((inside p []).mem.read 2)).toNat <
      2 ^ (inside p []).inst.addrBits ∧
    (look (exec (.op107E (o2 0 9)) (inside p [])) fun u =>
      (look (exec (.op87E (o2 1 2)) u) fun _ => true)) = some (some true) := by decide

theorem witness_IndicatorsAct :
    ((o2 0b010010 0).x.getLsbD 1 = true ∧ (o2 0b010010 0).x.getLsbD 4 = true) ∧
    (¬ ((o2 0b010000 0).x.getLsbD 1 = true ∧ (o2 0b010000 0).x.getLsbD 4 = true) ∧
      (o2 0b010000 0).x.getLsbD 5 = false) ∧
    (¬ ((o2 0b101111 0).x.getLsbD 1 = true ∧ (o2 0b101111 0).x.getLsbD 4 = true) ∧
      (o2 0b101111 0).x.getLsbD 5 = true ∧ InStore (inside 102 []) (32767#24).toNat) := by decide

theorem witness_AbandonLeavesExtracode :
    ¬ ((o2 32 516).x.getLsbD 1 = true ∧ (o2 32 516).x.getLsbD 4 = true) ∧
    (o2 32 516).x.getLsbD 5 = true ∧ InStore (inside 102 []) (o2 32 516).y.toNat ∧
    ¬ InStore (inside 102 []) (o2 32 32768).y.toNat ∧
    ¬ ((o2 15 0).x.getLsbD 1 = true ∧ (o2 15 0).x.getLsbD 4 = true) ∧
    (o2 15 0).x.getLsbD 5 = false := by decide

theorem witness_SetAbandonmentAddress : (inside 102 []).inst.addrBits ≤ 24 := by decide

theorem witness_LoadLowerReservation : (inside 102 [(8, 0x10FF)]).inst.addrBits ≤ 24 ∧
    InStore (inside 102 [(8, 0x10FF)]) (8#15).toNat ∧
    (0x00#24).extractLsb' 0 4 = 0#4 ∧ (0x00#24).extractLsb' 4 2 = 0#2 := by decide

/-- Tester 7 has a current address, tester 1 has not. -/
def currents : State := { testers [] with inst := { vectorInst with hasCurrent := 0x40 } }

theorem witness_LoadTesterRegister :
    ((0x10#24).extractLsb' 0 4 = 0#4 ∧ (0x10#24).extractLsb' 4 2 = 1#2) ∧
    currents.inst.addrBits ≤ 24 ∧ InStore currents (8#15).toNat ∧
    currents.inst.hasCurrent.getLsbD (6 : Fin 7).val = true ∧
    [0x07#24, 0x17#24, 0x27#24, 0x37#24].map (fun y =>
      ((y.extractLsb' 0 4).toNat, y.extractLsb' 4 2)) =
      [(6 + 1, 0#2), (6 + 1, 1#2), (6 + 1, 2#2), (6 + 1, 3#2)] := by decide

theorem witness_UndescribedSelectionsRefused : InStore currents (8#15).toNat ∧
    currents.inst.hasCurrent.getLsbD (1 - 1) = false ∧
    [0x08#24, 0x3F#24, 0x20#24, 0x30#24, 0x21#24].map (fun y =>
      ((y.extractLsb' 0 4).toNat, y.extractLsb' 4 2)) =
      [(8, 0#2), (15, 3#2), (0, 2#2), (0, 3#2), (1, 2#2)] := by decide

theorem witness_ReadBackRegister : currents.mem.wf = true ∧ currents.inst.addrBits ≤ 24 ∧
    InStore currents (8#15).toNat ∧
    selectRegister currents.inst 0x31 = .ok (.lkSW 0) ∧
    selectRegister currents.inst 0x10 = .ok .resUpper ∧
    selectRegister currents.inst 0x67 = .ok (.lkCurrent 6) := by decide

theorem witness_LoadThenReadBack : currents.mem.wf = true ∧ currents.inst.addrBits ≤ 24 ∧
    6 ≤ currents.inst.addrBits ∧
    ∀ p ∈ [(0x00#24, TesterRegister.resLower), (0x27#24, .lkCurrent 6)],
      selectRegister currents.inst p.1 = .ok p.2 ∧
      (look (exec (.op20E (o2 8 p.1)) currents) fun u =>
        (look (exec (.op21E (o2 9 p.1)) u) fun _ => true)) = some (some true) := by decide

theorem witness_LockoutFailureMeans :
    lockoutFailure (testers []) .strong 200 300 = true ∧
    lockoutFailure (testers []) .strong 201 300 = false := by decide

theorem witness_ReservationFailureMeans : 32767 ≤ 32768 ∧
    reservationFailure (testers []) .weak 32767 32768 = true ∧
    reservationFailure (testers []) .weak 32767 32767 = false := by decide

/-- Its three clauses: no failure, a reservation failure alone, a lockout failure. -/
theorem witness_RegionTests :
    ∀ p ∈ [(201#48, 201#48, false, false), (0o77777, 0o100000, false, true),
           (200, 200, true, false)],
      (testers [(11, p.1), (12, p.2.1)]).mem.wf = true ∧
      InStore (testers []) (11#15).toNat ∧ InStore (testers []) (12#24).toNat ∧
      InStore (testers []) (13#15).toNat ∧
      p.1.extractLsb' 24 24 = p.2.1.extractLsb' 24 24 ∧
      p.1.toNat % 2 ^ 24 ≤ p.2.1.toNat % 2 ^ 24 ∧
      lockoutFailure (testers []) .strong p.1.toNat p.2.1.toNat = p.2.2.1 ∧
      reservationFailure (testers []) .strong p.1.toNat p.2.1.toNat = p.2.2.2 := by
  intro p hp
  simp only [List.mem_cons, List.not_mem_nil, or_false] at hp
  obtain rfl | rfl | rfl := hp <;> decide

theorem witness_RegionTestsRefused : InStore (testers []) (11#15).toNat ∧
    InStore (testers []) (12#24).toNat ∧
    (0x000001000000#48).extractLsb' 24 24 ≠ (0#48).extractLsb' 24 24 ∧
    ((1#48).extractLsb' 24 24 = (0#48).extractLsb' 24 24 ∧
      (0#48).toNat % 2 ^ 24 < (1#48).toNat % 2 ^ 24) := by decide

theorem witness_PeripheralExchange : (inside 102 []).mem.wf = true ∧
    InStore (inside 102 []) (0x7FFF#15).toNat ∧
    { inside 102 [] with replies := [.one 1] }.replies = .one 1 :: [] ∧
    { inside 102 [] with replies := [.two 1 2] }.replies = .two 1 2 :: [] := by decide

theorem witness_CharacterConversion : (inside 102 tableT1).mem.wf = true ∧
    InStore (inside 102 tableT1) (0#15).toNat ∧
    (32760#24).toNat + 8 ≤ (inside 102 tableT1).inst.storeSize := by decide

theorem witness_ColumnsToRows_RowsJoined : (inside 102 []).mem.wf = true ∧
    (32765#15).toNat + 3 ≤ (inside 102 []).inst.storeSize ∧
    (32763#24).toNat + 4 < (inside 102 []).inst.storeSize ∧
    (32766#15).toNat + 2 ≤ (inside 102 []).inst.storeSize ∧
    (32766#24).toNat + 1 < (inside 102 []).inst.storeSize ∧
    (inside 102 []).inst.colRow2 = .candidate := by decide

/-- A source field with plain characters, a tabulate pair (TAB and 1, listed from 3 to 5) and the
terminating NL: 01 02 03 TAB 01 04 NL 77. -/
def tabbing (fill : Option Character) : State :=
  { inside 102 [(0o201, 0o0102031301041277)] with
    inst := { vectorInst with max27 := 8, tabTarget := [((1, 3), 5)], fill27 := fill } }

/-- One plain character of 27E, and one tabulate pair, with what they read and write computed. -/
theorem scanned_plain {c : Installation} {m : Memory} {o : Operands} {i d : Nat}
    {ws ws' : List (Nat × Character)} (ch : Character) (h : Scanned c m o i d ws)
    (hs : sourceChar m o ws i = ch) (hi : i < c.max27) (he : ¬ Ends c ch) (ht : ch ≠ c.tabCode)
    (hw : ws' = ws ++ [(d, ch)]) : Scanned c m o (i + 1) (d + 1) ws' := by
  subst hs hw
  exact .plain h hi he ht

theorem scanned_tab {c : Installation} {m : Memory} {o : Operands} {i d t : Nat}
    {ws ws' : List (Nat × Character)} (h : Scanned c m o i d ws)
    (hs : sourceChar m o ws i = c.tabCode) (hi : i < c.max27) (he : ¬ Ends c c.tabCode)
    (ht : tabTarget c (sourceChar m o ws (i + 1)) d = t) (hw : ws' = ws ++ fills c.fill27 d t) :
    Scanned c m o (i + 2) t ws' := by
  subst ht hw
  exact .tab h hi (hs ▸ he) hs

/-- Both values of FILL: the skipped places 3 and 4 are filled, or left unchanged. -/
theorem witness_PrinterPreparation : ∀ p ∈ [(none, [(0, 1#6), (1, 2), (2, 3), (5, 4)]),
      (some (0o20#6), [(0, 1#6), (1, 2), (2, 3), (3, 0o20), (4, 0o20), (5, 4)])],
    (tabbing p.1).mem.wf = true ∧ InStore (tabbing p.1) (0o300#15).toNat ∧
    Scanned (tabbing p.1).inst (tabbing p.1).mem (o3 0o100 0o200 0o300) 6 6 p.2 ∧
    6 < (tabbing p.1).inst.max27 ∧
    Ends (tabbing p.1).inst (sourceChar (tabbing p.1).mem (o3 0o100 0o200 0o300) p.2 6) ∧
    InStore (tabbing p.1) ((0o200#24).toNat + 1 + (6 + 1) / 8) ∧
    (∀ q ∈ p.2, InStore (tabbing p.1) ((0o100#15).toNat + q.1 / 8)) := by
  intro p hp
  simp only [List.mem_cons, List.not_mem_nil, or_false] at hp
  obtain rfl | rfl := hp
  · refine ⟨by decide, by decide, ?_, by decide, by decide, by decide, by decide⟩
    have h1 := scanned_plain 1 (Scanned.start (c := (tabbing none).inst)
      (m := (tabbing none).mem) (o := o3 0o100 0o200 0o300)) (by decide) (by decide) (by decide)
      (by decide) rfl
    have h2 := scanned_plain 2 h1 (by decide) (by decide) (by decide) (by decide) rfl
    have h3 := scanned_plain 3 h2 (by decide) (by decide) (by decide) (by decide) rfl
    have h4 := scanned_tab (t := 5) h3 (by decide) (by decide) (by decide) (by decide) rfl
    exact scanned_plain 4 h4 (by decide) (by decide) (by decide) (by decide) (by decide)
  · refine ⟨by decide, by decide, ?_, by decide, by decide, by decide, by decide⟩
    have h1 := scanned_plain 1 (Scanned.start (c := (tabbing (some 0o20#6)).inst)
      (m := (tabbing (some 0o20#6)).mem) (o := o3 0o100 0o200 0o300)) (by decide) (by decide)
      (by decide) (by decide) rfl
    have h2 := scanned_plain 2 h1 (by decide) (by decide) (by decide) (by decide) rfl
    have h3 := scanned_plain 3 h2 (by decide) (by decide) (by decide) (by decide) rfl
    have h4 := scanned_tab (t := 5) h3 (by decide) (by decide) (by decide) (by decide) rfl
    exact scanned_plain 4 h4 (by decide) (by decide) (by decide) (by decide) (by decide)

/-- 27E on a source field of one word, in a store of 32767 words. -/
def strip (a : Nat) (w : Word) (maximum target : Nat) (fill : Option Character) : State :=
  { inside 102 [(a, w)] with
    inst := { vectorInst with
      storeSize := 0x7FFF, max27 := maximum, tabTarget := [((1, 0), target)], fill27 := fill } }

/-- The destination is the source: FILL is the NL code, and a tabulate pair writes it over the plain
character it then comes to, which ends the order. -/
theorem witness_PrinterPreparation_overlap :
    (strip 0o201 0o1301050677000000 8 3 (some 0o12)).mem.wf = true ∧
    Scanned (strip 0o201 0o1301050677000000 8 3 (some 0o12)).inst [(0o201, 0o1301050677000000)]
      (o3 0o201 0o200 0o300) 2 3 [(0, 0o12), (1, 0o12), (2, 0o12)] ∧
    Ends (strip 0o201 0o1301050677000000 8 3 (some 0o12)).inst
      (sourceChar [(0o201, 0o1301050677000000)] (o3 0o201 0o200 0o300)
        [(0, 0o12), (1, 0o12), (2, 0o12)] 2) ∧
    ¬ Ends (strip 0o201 0o1301050677000000 8 3 (some 0o12)).inst
      (charAt [(0o201, 0o1301050677000000)] (8 * 0o201 + 2)) :=
  ⟨by decide, scanned_tab (t := 3) .start (by decide) (by decide) (by decide) (by decide)
    (by decide), by decide, by decide⟩

/-- MAX27 passed; the source character outside the store; the place to copy to. -/
theorem witness_PrinterPreparationStops : (strip 0o201 0o0102 1 0 none).mem.wf = true ∧
    (Scanned (strip 0o201 0o0102 1 0 none).inst [(0o201, 0o0102)] (o3 0o100 0o200 0o300) 1 1
        [(0, 0)] ∧ (strip 0o201 0o0102 1 0 none).inst.max27 ≤ 1) ∧
    ¬ InStore (strip 0o201 0o0102 1 0 none) ((0x7FFE#24).toNat + 1 + 0 / 8) ∧
    (InStore (strip 0o201 0o0102 1 0 none) ((0x7FFD#24).toNat + 1 + 0 / 8) ∧
      ¬ InStore (strip 0o201 0o0102 1 0 none) ((0x7FFF#15).toNat + 0 / 8)) :=
  ⟨by decide, ⟨scanned_plain 0 .start (by decide) (by decide) (by decide) (by decide) (by decide),
    by decide⟩, by decide, by decide⟩

/-- The result word outside the store; the place to fill (the last one inside is place 7 of word
0x7FFE). -/
theorem witness_PrinterPreparationStops_fill :
    ((strip 0o201 0o1277000000000000 8 0 none).mem.wf = true ∧
      Ends (strip 0o201 0o1277000000000000 8 0 none).inst
        (sourceChar [(0o201, 0o1277000000000000)] (o3 0o100 0o200 0x7FFF) [] 0) ∧
      ¬ InStore (strip 0o201 0o1277000000000000 8 0 none) (0x7FFF#15).toNat) ∧
    (strip 0o201 0o1301000000000000 8 9 (some 0)).mem.wf = true ∧
    sourceChar [(0o201, 0o1301000000000000)] (o3 0x7FFE 0o200 0o300) [] 0 =
      (strip 0o201 0o1301000000000000 8 9 (some 0)).inst.tabCode ∧
    8 < tabTarget (strip 0o201 0o1301000000000000 8 9 (some 0)).inst
      (sourceChar [(0o201, 0o1301000000000000)] (o3 0x7FFE 0o200 0o300) [] 1) 0 ∧
    (∀ p, p < 8 → InStore (strip 0o201 0o1301000000000000 8 9 (some 0))
      ((0x7FFE#15).toNat + p / 8)) ∧
    ¬ InStore (strip 0o201 0o1301000000000000 8 9 (some 0)) ((0x7FFE#15).toNat + 8 / 8) := by
  decide

/-- The second character of a terminating and of a tabulate pair outside the store: the last
character of the store is NL, or TAB. -/
theorem witness_PrinterPreparationStops_pair : ∀ ch ∈ [0o12#48, 0o13],
    (strip 0x7FFE (0o1301130113010200 + ch) 8 0 none).mem.wf = true ∧
    Scanned (strip 0x7FFE (0o1301130113010200 + ch) 8 0 none).inst
      [(0x7FFE, 0o1301130113010200 + ch)] (o3 0o100 0x7FFD 0o300) 7 1 [(0, 2)] ∧
    (∀ i, i < 7 → InStore (strip 0x7FFE (0o1301130113010200 + ch) 8 0 none)
      ((0x7FFD#24).toNat + 1 + i / 8)) ∧
    charAt [(0x7FFE, 0o1301130113010200 + ch)] (8 * ((0x7FFD#24).toNat + 1) + 7) =
      ch.setWidth 6 ∧
    InStore (strip 0x7FFE (0o1301130113010200 + ch) 8 0 none)
      ((0x7FFD#24).toNat + 1 + 7 / 8) ∧
    ¬ InStore (strip 0x7FFE (0o1301130113010200 + ch) 8 0 none)
      ((0x7FFD#24).toNat + 1 + (7 + 1) / 8) := by
  intro ch h
  simp only [List.mem_cons, List.not_mem_nil, or_false] at h
  obtain rfl | rfl := h
  · refine ⟨by decide, ?_, by decide, by decide, by decide, by decide⟩
    have h1 := scanned_tab (t := 0) (Scanned.start
      (c := (strip 0x7FFE (0o1301130113010200 + 0o12) 8 0 none).inst)
      (m := [(0x7FFE, 0o1301130113010200 + 0o12)]) (o := o3 0o100 0x7FFD 0o300)) (by decide)
      (by decide) (by decide) (by decide) rfl
    have h2 := scanned_tab (t := 0) h1 (by decide) (by decide) (by decide) (by decide) rfl
    have h3 := scanned_tab (t := 0) h2 (by decide) (by decide) (by decide) (by decide) rfl
    exact scanned_plain 2 h3 (by decide) (by decide) (by decide) (by decide) (by decide)
  · refine ⟨by decide, ?_, by decide, by decide, by decide, by decide⟩
    have h1 := scanned_tab (t := 0) (Scanned.start
      (c := (strip 0x7FFE (0o1301130113010200 + 0o13) 8 0 none).inst)
      (m := [(0x7FFE, 0o1301130113010200 + 0o13)]) (o := o3 0o100 0x7FFD 0o300)) (by decide)
      (by decide) (by decide) (by decide) rfl
    have h2 := scanned_tab (t := 0) h1 (by decide) (by decide) (by decide) (by decide) rfl
    have h3 := scanned_tab (t := 0) h2 (by decide) (by decide) (by decide) (by decide) rfl
    exact scanned_plain 2 h3 (by decide) (by decide) (by decide) (by decide) (by decide)

/-- The tabulate pair in a run: places 3 and 4 filled, 5 the next plain character. -/
theorem test_27E_tabulate :
    words (exec (.op27E (o3 0o100 0o200 0o300)) (tabbing (some 0o20))) [0o100] =
      some [0o0102032020040000] := by decide

theorem witness_LineImage : (inside 102 [(8, 0o7777777777777777)]).mem.wf = true ∧
    InStore (inside 102 []) (8#15).toNat ∧ InStore (inside 102 []) (10#15).toNat ∧
    ∀ i, i < 8 → InStore (inside 102 [])
      ((0o3000#24).toNat + 3 * wheelIndex (inside 102 []).inst (charOf 0o7777777777777777 i)) := by
  decide

/-- Columns with two holes, one, none, and a 10 hole only, under a mask of the 1 to 9 positions. -/
theorem witness_CardConversions : (inside 102 []).mem.wf = true ∧
    InStore (inside 102 []) (8#15).toNat ∧ InStore (inside 102 []) (9#24).toNat ∧
    InStore (inside 102 []) (10#15).toNat ∧
    [0, 1, 2, 3].map (holesUnderMask 0o0301004000000000 0o0700000077000000) = [2, 1, 0, 0] ∧
    onlyTenEleven (inside 102 []).inst 0o0301004000000000 0o0700000077000000 3 = true ∧
    column (blankColumn 0o0301004000000000 3) 3 = 0#12 ∧
    (∀ k, k < 4 → k ≠ 3 →
      column (blankColumn 0o0301004000000000 3) k = column 0o0301004000000000 k) := by decide

/-- Counts 0 and 8, into the last word of the store. -/
theorem witness_CharactersTransferred : ∀ r ∈ [0#48, 8],
    (transferring 0x200 0x7FFF r).mem.wf = true ∧
    InStore (transferring 0x200 0x7FFF r) (8#15).toNat ∧
    InStore (transferring 0x200 0x7FFF r) (9#24).toNat ∧
    InStore (transferring 0x200 0x7FFF r) (10#15).toNat ∧ r.toNat < 2 ^ 47 ∧
    charIndex (transferring 0x200 0x7FFF r).inst 0x200 + r.toNat ≤ 8 * 32768 ∧
    charIndex (transferring 0x200 0x7FFF r).inst 0x7FFF + r.toNat ≤ 8 * 32768 := by
  intro r hr
  simp only [List.mem_cons, List.not_mem_nil, or_false] at hr
  obtain rfl | rfl := hr <;> decide

/-- A store whose last word is 01 02 NL 04 05 06 07 10, with the operands at 8, 9 and 10. -/
def lastWord (p q r : Word) : State :=
  inside 102 (Memory.write [(8, p), (9, q), (0x7FFF, 0o0102120405060710)] 10 r)

/-- 106E from the last word of the store: a count of 2^47 - 1 runs past the store, but the third
character is NL; a count of 2 ends first; a count of 0. -/
theorem witness_CharactersTransferredToNL : ∀ p ∈ [(0x7FFFFFFFFFFF#48, 3), (2, 2), (0, 0)],
    (lastWord 0x7FFF 0x400 p.1).mem.wf = true ∧
    InStore (lastWord 0x7FFF 0x400 p.1) (8#15).toNat ∧
    InStore (lastWord 0x7FFF 0x400 p.1) (9#24).toNat ∧
    InStore (lastWord 0x7FFF 0x400 p.1) (10#15).toNat ∧ p.1.toNat < 2 ^ 47 ∧ p.2 ≤ p.1.toNat ∧
    charIndex (lastWord 0x7FFF 0x400 p.1).inst 0x7FFF = 8 * 32767 ∧
    charIndex (lastWord 0x7FFF 0x400 p.1).inst 0x400 = 8 * 0x400 ∧
    (∀ k, k + 1 < p.2 →
      movedChar (lastWord 0x7FFF 0x400 p.1).mem (8 * 32767) (8 * 0x400) k ≠ vectorInst.nlCode) ∧
    (p.2 = p.1.toNat ∨ 0 < p.2 ∧ movedChar (lastWord 0x7FFF 0x400 p.1).mem (8 * 32767) (8 * 0x400)
      (p.2 - 1) = vectorInst.nlCode) ∧
    8 * 32767 + p.2 ≤ 8 * 32768 ∧ 8 * 0x400 + p.2 ≤ 8 * 32768 := by
  intro p hp
  simp only [List.mem_cons, List.not_mem_nil, or_false] at hp
  obtain rfl | rfl | rfl := hp
  · refine ⟨by decide, by decide, by decide, by decide, by decide, by decide, by decide,
      by decide, ?_, by decide, by decide, by decide⟩
    intro k hk
    have : ∀ k, k < 2 → movedChar (lastWord 0x7FFF 0x400 0x7FFFFFFFFFFF#48).mem (8 * 32767)
      (8 * 0x400) k ≠ vectorInst.nlCode := by decide
    exact this k (by omega)
  · refine ⟨by decide, by decide, by decide, by decide, by decide, by decide, by decide,
      by decide, ?_, by decide, by decide, by decide⟩
    intro k hk
    have : ∀ k, k < 1 → movedChar (lastWord 0x7FFF 0x400 2#48).mem (8 * 32767) (8 * 0x400) k ≠
      vectorInst.nlCode := by decide
    exact this k (by omega)
  · exact ⟨by decide, by decide, by decide, by decide, by decide, by decide, by decide,
      by decide, fun k hk => absurd hk (by omega), by decide, by decide, by decide⟩

/-- The smallest negative count; from the last character of the store, the second one is outside;
into it likewise. -/
theorem witness_CharacterTransfersStop :
    2 ^ 47 ≤ ((lastWord 0 0 0x800000000000).mem.read (10#15).toNat).toNat ∧
    ((lastWord 0xE00000007FFF 0x400 2).mem.read (10#15).toNat).toNat = 2 ∧
    charIndex vectorInst 0xE00000007FFF = 8 * 32767 + 7 ∧ charIndex vectorInst 0x400 = 8 * 0x400 ∧
    (∀ j, j < 1 → (InStore (lastWord 0 0 0) ((8 * 32767 + 7 + j) / 8) ∧
        InStore (lastWord 0 0 0) ((8 * 0x400 + j) / 8)) ∧
      movedChar (lastWord 0xE00000007FFF 0x400 2).mem (8 * 32767 + 7) (8 * 0x400) j ≠
        vectorInst.nlCode ∧
      movedChar (lastWord 0x400 0xE00000007FFF 2).mem (8 * 0x400) (8 * 32767 + 7) j ≠
        vectorInst.nlCode) ∧
    ¬ InStore (lastWord 0 0 0) ((8 * 32767 + 7 + 1) / 8) ∧
    InStore (lastWord 0 0 0) ((8 * 0x400 + 1) / 8) := by decide

/-- A store of 32767 words, to which each access is one word too far: a 15-bit address; the table,
the sources and the destinations of 24E, 25E and 26E; the operands of the 3-address orders; the
second image word. -/
def short : State :=
  { inside 125 [] with inst := { vectorInst with storeSize := 0x7FFF } }

theorem witness_OperandsOutsideStoreFault :
    short.inst.storeSize ≤ (0x7FFF#15).toNat ∧ (0x7FFE#15).toNat < short.inst.storeSize ∧
    selectRegister short.inst 0x17 = .ok (.lkUpper 6) ∧
    (short.inst.storeSize < (0x7FF8#24).toNat + 8 ∧ (0x7FF7#24).toNat + 8 ≤ short.inst.storeSize) ∧
    (short.inst.storeSize < (0x7FFD#15).toNat + 3 ∧ (0x7FFC#15).toNat + 3 ≤ short.inst.storeSize ∧
      short.inst.storeSize ≤ (0x7FFF#24).toNat ∧
      ((0x7FFE#24).toNat < short.inst.storeSize ∧
        short.inst.storeSize ≤ (0x7FFE#24).toNat + 2) ∧
      ((0x7FFC#24).toNat + 2 < short.inst.storeSize ∧
        short.inst.storeSize ≤ (0x7FFC#24).toNat + 4)) ∧
    (short.inst.storeSize < (0x7FFE#15).toNat + 2 ∧ (0x7FFD#15).toNat + 2 ≤ short.inst.storeSize ∧
      (0x7FFE#24).toNat < short.inst.storeSize ∧
      short.inst.storeSize ≤ (0x7FFE#24).toNat + 1) ∧
    ((short.mem.read 1).extractLsb' 24 24 = (short.mem.read 2).extractLsb' 24 24 ∧
      (short.mem.read 1).toNat % 2 ^ 24 ≤ (short.mem.read 2).toNat % 2 ^ 24) ∧
    ((0x7FFC#24).toNat + 3 * wheelIndex short.inst (charOf 0o0001000000000000 0) <
        short.inst.storeSize ∧
      short.inst.storeSize ≤
        (0x7FFC#24).toNat + 3 * wheelIndex short.inst (charOf 0o0001000000000000 1)) := by decide

theorem witness_WholeOrdersEnter_PairOrdersEnter : (outside []).mem.wf = true ∧
    (outside []).xcActive = false ∧ InStore (outside []) 516 := by decide

/-- Both clauses, for a division and for an order that may need help. -/
theorem witness_DivisionsEnter_HelpedOrdersEnter : ∀ b ∈ [true, false],
    CodesDistinct (dividing 40 (o2 1 2) b).inst.code ∧
    (dividing 40 (o2 1 2) b).mem.wf = true ∧ (dividing 40 (o2 1 2) b).xcActive = false ∧
    InStore (dividing 40 (o2 1 2) b) 516 ∧
    quotientAppearsOutOfRange ⟨functionCode 40, o2 1 2⟩ (dividing 40 (o2 1 2) b) = b ∧
    CodesDistinct (helping 95 (o2 1 2) b).inst.code ∧
    (helping 95 (o2 1 2) b).mem.wf = true ∧ (helping 95 (o2 1 2) b).xcActive = false ∧
    InStore (helping 95 (o2 1 2) b) 516 ∧
    needsExtracodeHelp ⟨functionCode 95, o2 1 2⟩ (helping 95 (o2 1 2) b) = b := by decide

theorem witness_MonitoredOrderEnters : CodesDistinct (outside []).inst.code ∧
    { State.reset.opt with monitoringMode := true }.monitoringMode = true ∧
    { State.reset.opt with engineersMode := true }.engineersMode = true ∧
    (outside []).opt.monitoringMode = false ∧ (outside []).opt.engineersMode = false := by decide

theorem witness_EntryInformation_EntryFunctionWord : (outside []).mem.wf = true ∧
    CodesDistinct (outside []).inst.code ∧
    (outside []).inst.jBits ≤ 47 ∧ (outside []).inst.entryFill = .zero ∧
    (Instr.op155 (o2 1 2), 155) ∈ enteringOrders (o2 1 2) ∧
    (look (exec (.op155 (o2 1 2)) (outside [])) fun _ => true) = some true := by decide

theorem witness_NormalOrdersRefused :
    (entryCause ⟨functionCode 126, o2 1 2⟩ (inside 102 [])).isSome = true ∧
    entryCause ⟨functionCode 30, o2 1 2⟩ (inside 102 []) = none ∧
    (inside 102 []).xcActive = true ∧ (Instr.op126 (o2 1 2), 126) ∈ enteringOrders (o2 1 2) := by
  decide

theorem witness_PairKeepsW_AbandonRestoresOvr : (outside []).inst.addrBits ≤ 24 ∧
    CodesDistinct (outside []).inst.code ∧
    (outside []).mem.wf = true ∧ (o2 32 516).x.getLsbD 5 = true ∧ (o2 32 516).y = 516#24 ∧
    (Instr.op140 (o2 1 2), 140) ∈ enteringOrders (o2 1 2) ∧
    (Instr.op142 (o2 1 2), 142) ∈ enteringOrders (o2 1 2) ∧
    ∀ i ∈ [Instr.op140 (o2 1 2), .op142 (o2 1 2)],
      (look (exec i (outside [])) fun u =>
        (look (exec (.op87E (o2 1 2)) u) fun _ => true,
         look (exec (.op23E (o2 32 516)) u) fun _ => true)) =
        some (some true, some true) := by decide

end Sys2Proof.Tests
end

