-- ==== Sys2Proof/Proofs/Exceptions.lean ====
section
/-!
PROOF. The orders that always enter Extracode outside XC_ACTIVE (spec/60_exceptions.md R141, R142):
their cause holds whatever the state, and what an entry leaves behind is R145's frame.
-/

namespace Sys2Proof.Claims

open Sys2Proof.Machine

/-- The printed functions whose entry has no condition: EC1 to EC4 (R140). -/
def alwaysEntering : List Nat := [102, 103, 125, 126, 140, 141, 142, 154, 155]

/-- A function of EC1 to EC4 has a cause of entry in every state. No CodesDistinct is needed: were
two printed functions spelled alike, an earlier row of R140 would give the cause. -/
theorem entryCause_isSome_of_alwaysEntering {o : Order} {s : State}
    (h : o.f ∈ functionsOf s.inst alwaysEntering) : (entryCause o s).isSome = true := by
  have rows : o.f ∈ functionsOf s.inst [102, 103] ∨ o.f ∈ functionsOf s.inst [125, 126] ∨
      o.f ∈ functionsOf s.inst [140, 141, 142] ∨ o.f ∈ functionsOf s.inst [154, 155] := by
    simpa [functionsOf, alwaysEntering, or_assoc] using h
  unfold entryCause
  split
  · rfl
  split
  · rfl
  split
  · rfl
  split
  · rfl
  · rename_i h1 h2 h3 h4
    simp only [h1, h2, h3, h4, or_self] at rows

/-- Entry writes the words 512 to 516 and no other (R145). -/
theorem read_entryStore_of_notMem (o : Order) {s : State} (hm : s.mem.wf = true) {a : Nat}
    (ha : a ∉ [512, 513, 514, 515, 516]) : (entryStore o s).read a = s.mem.read a := by
  simp only [List.mem_cons, List.not_mem_nil, or_false, not_or] at ha
  obtain ⟨hx, hf, hy, hr, hl⟩ := ha
  have w1 := Memory.wf_write hm entryX (entryWordX o s)
  have w2 := Memory.wf_write w1 entryFunction (entryWordFunction o s)
  have w3 := Memory.wf_write w2 entryY (entryWordY o s)
  have w4 := Memory.wf_write w3 entryResult (entryWordResult o s)
  rw [entryStore, Memory.read_write_of_ne w4 hl, Memory.read_write_of_ne w3 hr,
    Memory.read_write_of_ne w2 hy, Memory.read_write_of_ne w1 hf, Memory.read_write_of_ne hm hx]

/-- The state after entry has R145's frame. -/
theorem entered_of_wf (o : Order) {s : State} (hm : s.mem.wf = true) : Entered s (entered o s) :=
  ⟨rfl, fun _ ha => read_entryStore_of_notMem o hm ha⟩

/-- Outside XC_ACTIVE an order that can enter does so when its cause holds, with R145's frame. -/
theorem obeyEntering_enters {p : Nat} {o : Operands} {s : State} (hm : s.mem.wf = true)
    (hx : s.xcActive = false) (hs : InStore s 516)
    (hc : (entryCause ⟨s.inst.code p, o⟩ s).isSome = true) :
    ∃ t, obeyEntering p o s = .next t ∧ Entered s t :=
  ⟨_, (obeyEntering_eq_next p o).mpr ⟨hc, hx, hs, rfl⟩, entered_of_wf _ hm⟩

/-- An order of EC1 to EC4 enters outside XC_ACTIVE (R141, R142). -/
theorem obeyEntering_enters_of_alwaysEntering {p : Nat} (hp : p ∈ alwaysEntering) (o : Operands)
    {s : State} (hm : s.mem.wf = true) (hx : s.xcActive = false) (hs : InStore s 516) :
    ∃ t, obeyEntering p o s = .next t ∧ Entered s t :=
  obeyEntering_enters hm hx hs (entryCause_isSome_of_alwaysEntering (List.mem_map_of_mem hp))

/-- The meaning of each order that can enter is `obeyEntering` of its printed function. -/
theorem exec_enteringOrders (o : Operands) (s : State) :
    ∀ p ∈ enteringOrders o, exec p.1 s = obeyEntering p.2 o s := by
  simp only [enteringOrders, List.forall_mem_cons]
  exact ⟨rfl, rfl, rfl, rfl, rfl, rfl, rfl, rfl, rfl, rfl, rfl, rfl, rfl, rfl, rfl, rfl, rfl, rfl,
    List.forall_mem_nil _⟩

/-- Settles O51: each of the four is an order of R140 whose cause always holds, so it enters. -/
theorem wholeOrdersEnter : Obligations.WholeOrdersEnter := by
  unfold Obligations.WholeOrdersEnter
  intro o s hm hx hs p hp
  have horder : p ∈ enteringOrders o := List.mem_of_mem_take (i := 4) hp
  have halways : p.2 ∈ alwaysEntering := List.mem_of_mem_take (i := 4) (List.mem_map_of_mem hp)
  rw [exec_enteringOrders o s p horder]
  exact obeyEntering_enters_of_alwaysEntering halways o hm hx hs

end Sys2Proof.Claims
end

section
/-!
PROOF. What follows from the orders' rules for reset and hazards (spec/70_reset_and_hazards.md): the
W of a 107E outlives the next 87 only where the entry was for a 140 or a 141 (R179), and the lower
reservation address is kept a multiple of 64 (R173).
-/

namespace Sys2Proof.Claims

open Sys2Proof.Machine

variable {s t : State} {f : Function7}

/-! ## What 87 makes of W, and what 107E leaves to it (R80, R84) -/

theorem keepsW_iff (c : Installation) (f : Function7) :
    keepsW c f = true ↔ f = c.code 140 ∨ f = c.code 141 := by
  simp [keepsW, functionsOf]

theorem updateW_of_pair (h : f = s.inst.code 140 ∨ f = s.inst.code 141) (x : Field15)
    (yv : Word) : updateW s f x yv = s.w :=
  if_pos ((keepsW_iff s.inst f).mpr h)

theorem toNat_updateW_of_not_pair (hb : s.inst.addrBits ≤ 24)
    (h : ¬ (f = s.inst.code 140 ∨ f = s.inst.code 141)) (x : Field15) (yv : Word) :
    (updateW s f x yv).toNat = (x.toNat + (modPart s.inst yv).toNat) % 2 ^ s.inst.addrBits := by
  rw [updateW, if_neg (mt (keepsW_iff s.inst f).mp h), toNat_toAddr _ _ hb]

/-- The W that an 87 leaves is settled by the entry recorded when it is met. -/
theorem w_of_exec87E {o : Operands} (hf : s.entryF = some f) (h : exec (.op87E o) s = .next t) :
    t.w = updateW s f o.x (s.mem.read o.y.toNat) := by
  obtain ⟨g, hg, rfl⟩ := exec87E_next h
  obtain rfl : f = g := Option.some.inj (hf.symm.trans hg)
  rfl

/-- 107E leaves alone what the next 87 consults. -/
theorem exec107E_keeps {o : Operands} (h : exec (.op107E o) s = .next t) :
    t.inst = s.inst ∧ t.entryF = s.entryF ∧ t.mem = s.mem := by
  obtain rfl := exec107E_next h
  exact ⟨rfl, rfl, rfl⟩

/-! ## The lower reservation address (R90, R91) -/

theorem selectRegister_resLower (c : Installation) {y : Half} (ht : testerNumber y = 0)
    (hr : testerSelector y = 0) : selectRegister c y = .ok .resLower := by
  simp [selectRegister, ht, hr]

theorem toNat_loadRegister_resLower (hb : s.inst.addrBits ≤ 24) (xv : Word) :
    (loadRegister s .resLower xv).res.lower.toNat =
      64 * (xv.toNat % 2 ^ s.inst.addrBits / 64) := by
  have ha : (addrOf s.inst xv).toNat = xv.toNat % 2 ^ s.inst.addrBits := toNat_toAddr _ _ hb
  have hlt : (addrOf s.inst xv).toNat < 2 ^ 24 := (addrOf s.inst xv).isLt
  rw [← ha]
  simp only [loadRegister, BitVec.toNat_ofNat]
  omega

theorem exec20E_of_select {o : Operands} {r : TesterRegister} (hx : InStore s o.x.toNat)
    (hr : selectRegister s.inst o.y = .ok r) :
    exec (.op20E o) s = .next (loadRegister s r (s.mem.read o.x.toNat)).advance := by
  show exec20E o s = _
  rw [exec20E, readWord_of_lt hx, withRegister_eq_next]
  exact ⟨r, hr, rfl⟩

/-- Settles O24: the 107E changes neither the recorded entry nor the store, so the 87 meets the
entry that was recorded before it, and that alone decides whether W is kept. -/
theorem jumpOverwritesW : Obligations.JumpOverwritesW := by
  unfold Obligations.JumpOverwritesW
  intro o p s u t f ym hb hf h107 h87 hym
  obtain ⟨hinst, hentry, hmem⟩ := exec107E_keeps h107
  rw [← hinst] at hb hym ⊢
  rw [← hmem] at hym
  have hw := w_of_exec87E (hentry.trans hf) h87
  refine ⟨fun hpair => hw.trans (updateW_of_pair hpair _ _), fun h140 h141 hlt => ?_⟩
  rw [hw, toNat_updateW_of_not_pair hb (not_or.mpr ⟨h140, h141⟩), ← hym, Nat.mod_eq_of_lt hlt]

/-- Settles O28: the order loads the lower reservation register and nothing else, and loading it
rounds the address down. -/
theorem loadLowerReservation : Obligations.LoadLowerReservation := by
  unfold Obligations.LoadLowerReservation
  intro o s a hb hx ha htester hselector
  have hsel : selectRegister s.inst o.y = .ok .resLower :=
    selectRegister_resLower s.inst (congrArg BitVec.toNat htester) (congrArg BitVec.toNat hselector)
  exact ⟨_, exec20E_of_select hx hsel, ha ▸ toNat_loadRegister_resLower hb _, rfl⟩

end Sys2Proof.Claims
end

section
/-!
PROOF. Encoding and decoding (spec/30_encoding.md section 2; the record layout is log 3): the bytes
of a record word, the fields of a record word, and the two round trips.
-/

namespace Sys2Proof.Claims

open Sys2Proof.Machine

variable {code : Nat → Function7} {i : Instr}

/-! ## Bytes -/

theorem length_bytesOfNat (n v : Nat) : (bytesOfNat n v).length = n := by
  induction n generalizing v with
  | zero => rfl
  | succ n ih => rw [bytesOfNat, List.length_cons, ih]

theorem natOfBytes_lt (bs : List (BitVec 8)) : natOfBytes bs < 256 ^ bs.length := by
  induction bs with
  | nil => decide
  | cons b bs ih =>
    have := b.isLt
    rw [natOfBytes, List.length_cons, Nat.pow_succ]
    omega

theorem natOfBytes_bytesOfNat {n v : Nat} (h : v < 256 ^ n) : natOfBytes (bytesOfNat n v) = v := by
  induction n generalizing v with
  | zero => simp only [Nat.pow_zero, Nat.lt_one_iff] at h; rw [h]; rfl
  | succ n ih =>
    rw [bytesOfNat, natOfBytes, ih (by rw [Nat.pow_succ] at h; omega), BitVec.toNat_ofNat]
    omega

theorem bytesOfNat_natOfBytes (bs : List (BitVec 8)) :
    bytesOfNat bs.length (natOfBytes bs) = bs := by
  induction bs with
  | nil => rfl
  | cons b bs ih =>
    have hb := b.isLt
    have hlow : BitVec.ofNat 8 (natOfBytes (b :: bs)) = b := by
      apply BitVec.eq_of_toNat_eq
      rw [BitVec.toNat_ofNat, natOfBytes]
      omega
    have hrest : natOfBytes (b :: bs) / 256 = natOfBytes bs := by rw [natOfBytes]; omega
    rw [List.length_cons, bytesOfNat, hlow, hrest, ih]

/-- The bytes of a record word decode as the word. -/
theorem decodeBytes_bytesOfNat (w : BitVec 64) :
    decodeBytes code (bytesOfNat 8 w.toNat) = decodeRecord code w := by
  rw [decodeBytes, if_pos (length_bytesOfNat 8 _), natOfBytes_bytesOfNat w.isLt, BitVec.ofNat_toNat,
    BitVec.setWidth_eq]

/-- Bytes that decode are the eight bytes of a record word. -/
theorem decodeBytes_eq_ok {bs : List (BitVec 8)} (h : decodeBytes code bs = .ok i) :
    ∃ w : BitVec 64, bytesOfNat 8 w.toNat = bs ∧ decodeRecord code w = .ok i := by
  rw [decodeBytes] at h
  split at h
  · rename_i hlen
    have hlt := natOfBytes_lt bs
    have hbytes := bytesOfNat_natOfBytes bs
    rw [hlen] at hlt hbytes
    refine ⟨_, ?_, h⟩
    rw [BitVec.toNat_ofNat, Nat.mod_eq_of_lt (show natOfBytes bs < 2 ^ 64 from hlt), hbytes]
  · cases h

/-! ## The fields of an order's record word -/

theorem encodeRecord_function : (encodeRecord code i).extractLsb' 0 7 = i.function code := by
  simp only [encodeRecord]
  repeat rw [BitVec.extractLsb'_append_eq_of_add_le (by decide)]
  exact BitVec.extractLsb'_eq_self

theorem encodeRecord_active : (encodeRecord code i).getLsbD 7 = i.active := by
  simp only [encodeRecord, BitVec.getLsbD_append]
  simp

theorem encodeRecord_form : (encodeRecord code i).getLsbD 8 = !i.args.a3 := by
  simp only [encodeRecord, BitVec.getLsbD_append]
  simp

theorem encodeRecord_x : (encodeRecord code i).extractLsb' 9 15 = i.args.x := by
  simp only [encodeRecord]
  iterate 3 rw [BitVec.extractLsb'_append_eq_of_add_le (by decide)]
  exact BitVec.extractLsb'_append_eq_left

theorem encodeRecord_y : (encodeRecord code i).extractLsb' 24 24 = i.args.y := by
  simp only [encodeRecord]
  iterate 2 rw [BitVec.extractLsb'_append_eq_of_add_le (by decide)]
  exact BitVec.extractLsb'_append_eq_left

theorem encodeRecord_z : (encodeRecord code i).extractLsb' 48 15 = i.args.z.getD 0#15 := by
  rw [encodeRecord, BitVec.extractLsb'_append_eq_of_add_le (by decide)]
  exact BitVec.extractLsb'_append_eq_left

theorem encodeRecord_reserved : (encodeRecord code i).getLsbD 63 = false := by
  simp only [encodeRecord, BitVec.getLsbD_append]
  simp

theorem recordOperands_encodeRecord : recordOperands (encodeRecord code i) = i.args := by
  rw [recordOperands, encodeRecord_x, encodeRecord_y, encodeRecord_z, encodeRecord_form]
  rcases i.args with ⟨x, y, _ | z⟩ <;> rfl

/-- An order's record word decodes as its mode and its order record. -/
theorem decodeRecord_encodeRecord :
    decodeRecord code (encodeRecord code i) = .ok (decodeOrder code i.active (i.order code)) := by
  have hz : (!i.args.a3 && i.args.z.getD 0#15 != 0#15) = false := by
    rcases i.args with ⟨x, y, _ | z⟩ <;> rfl
  rw [decodeRecord, encodeRecord_reserved, if_neg Bool.false_ne_true, encodeRecord_form,
    encodeRecord_z, hz, if_neg Bool.false_ne_true, encodeRecord_active, encodeRecord_function,
    recordOperands_encodeRecord]
  rfl

/-- A record word is made of its fields: what has them all is encoded as it. -/
theorem encodeRecord_eq {w : BitVec 64} (hf : i.function code = w.extractLsb' 0 7)
    (ha : i.active = w.getLsbD 7) (ho : i.args = recordOperands w) (h63 : w.getLsbD 63 = false)
    (hz : w.getLsbD 8 = true → w.extractLsb' 48 15 = 0#15) : encodeRecord code i = w := by
  have bit : ∀ n, BitVec.ofBool (w.getLsbD n) = w.extractLsb' n 1 := fun n =>
    BitVec.eq_of_getLsbD_eq fun j hj => by
      obtain rfl : j = 0 := by omega
      simp
  have top : 0#1 = w.extractLsb' 63 1 := by rw [← bit, h63]; rfl
  have form : (!i.args.a3) = w.getLsbD 8 := by
    rw [ho, recordOperands]
    cases w.getLsbD 8 <;> rfl
  have z : i.args.z.getD 0#15 = w.extractLsb' 48 15 := by
    rw [ho, recordOperands]
    cases h : w.getLsbD 8
    · rfl
    · exact (hz h).symm
  rw [encodeRecord, hf, ha, form, z, top, ho, recordOperands, bit, bit]
  simp only
  rw [BitVec.extractLsb'_append_extractLsb'_eq_extractLsb' (show 7 = 0 + 7 from rfl),
    BitVec.extractLsb'_append_extractLsb'_eq_extractLsb' (show 8 = 0 + 8 from rfl),
    BitVec.extractLsb'_append_extractLsb'_eq_extractLsb' (show 9 = 0 + 9 from rfl),
    BitVec.extractLsb'_append_extractLsb'_eq_extractLsb' (show 24 = 0 + 24 from rfl),
    BitVec.extractLsb'_append_extractLsb'_eq_extractLsb' (show 48 = 0 + 48 from rfl),
    BitVec.extractLsb'_append_extractLsb'_eq_extractLsb' (show 63 = 0 + 63 from rfl)]
  exact BitVec.extractLsb'_eq_self

/-- A record word is the record word of the order it decodes to. -/
theorem encodeRecord_of_decodeRecord {w : BitVec 64} (h : decodeRecord code w = .ok i) :
    encodeRecord code i = w ∧ WellFormed code i := by
  rw [decodeRecord] at h
  split at h
  · cases h
  split at h
  · cases h
  · rename_i h63 hz
    obtain rfl := Except.ok.inj h
    obtain ⟨ha, hf, ho, hwf⟩ := Laws.Encoding.decodeOrder_sound code (w.getLsbD 7)
      ⟨w.extractLsb' 0 7, recordOperands w⟩
    refine ⟨encodeRecord_eq hf ha ho (Bool.eq_false_of_not_eq_true h63) fun h8 => ?_, hwf⟩
    simpa [h8] using hz

/-- The mode, F-bits and operands of every well-formed order decode to that order. -/
theorem decodeOrder_order (i : Instr) : Laws.Encoding.Statement i := by
  cases i with
  | op87E o => exact Laws.Encoding.op87E o
  | op20E o => exact Laws.Encoding.op20E o
  | op21E o => exact Laws.Encoding.op21E o
  | op22E o => exact Laws.Encoding.op22E o
  | op23E o => exact Laws.Encoding.op23E o
  | op24E o => exact Laws.Encoding.op24E o
  | op25E o => exact Laws.Encoding.op25E o
  | op26E o => exact Laws.Encoding.op26E o
  | op27E o => exact Laws.Encoding.op27E o
  | op102E o => exact Laws.Encoding.op102E o
  | op103E o => exact Laws.Encoding.op103E o
  | op105E o => exact Laws.Encoding.op105E o
  | op106E o => exact Laws.Encoding.op106E o
  | op107E o => exact Laws.Encoding.op107E o
  | op125E o => exact Laws.Encoding.op125E o
  | op127E o => exact Laws.Encoding.op127E o
  | op140E o => exact Laws.Encoding.op140E o
  | op102 o => exact Laws.Encoding.op102 o
  | op103 o => exact Laws.Encoding.op103 o
  | op125 o => exact Laws.Encoding.op125 o
  | op126 o => exact Laws.Encoding.op126 o
  | op140 o => exact Laws.Encoding.op140 o
  | op141 o => exact Laws.Encoding.op141 o
  | op142 o => exact Laws.Encoding.op142 o
  | op154 o => exact Laws.Encoding.op154 o
  | op155 o => exact Laws.Encoding.op155 o
  | op40 o => exact Laws.Encoding.op40 o
  | op41 o => exact Laws.Encoding.op41 o
  | op42 o => exact Laws.Encoding.op42 o
  | op43 o => exact Laws.Encoding.op43 o
  | op44 o => exact Laws.Encoding.op44 o
  | op45 o => exact Laws.Encoding.op45 o
  | op95 o => exact Laws.Encoding.op95 o
  | op101 o => exact Laws.Encoding.op101 o
  | op156 o => exact Laws.Encoding.op156 o
  | normal active f o => exact Laws.Encoding.normal active f o

/-- Settles O2: the bytes hold the record word, the record word holds the mode, the F-bits and the
operands, and these decode to the order. -/
theorem decodeEncodeAgree : Obligations.DecodeEncodeAgree := by
  unfold Obligations.DecodeEncodeAgree
  intro code i hc hwf
  rw [encode, decodeBytes_bytesOfNat, decodeRecord_encodeRecord, decodeOrder_order i code hc hwf]

/-- Settles O3: bytes that decode are those of a record word, which its fields determine. -/
theorem encodeDecodeAgree : Obligations.EncodeDecodeAgree := by
  unfold Obligations.EncodeDecodeAgree
  intro code bs i h
  obtain ⟨w, rfl, hw⟩ := decodeBytes_eq_ok h
  obtain ⟨e, hwf⟩ := encodeRecord_of_decodeRecord hw
  exact ⟨by rw [encode, e], hwf⟩

/-- Settles O4: the row found, or NORMAL, carries the mode and the F-bits it was found by, and the
operands it is built from. -/
theorem decodeKeepsRecord : Obligations.DecodeKeepsRecord := by
  unfold Obligations.DecodeKeepsRecord
  intro code active o
  obtain ⟨ha, hf, ho, hwf⟩ := Laws.Encoding.decodeOrder_sound code active o
  exact ⟨by rw [Instr.order, hf, ho], ha, hwf⟩

/-- Settles O1: eleven closed words, evaluated. -/
theorem tableWordsDecode : Obligations.TableWordsDecode := by
  unfold Obligations.TableWordsDecode
  decide

/-! ## FunctionCode (R66) -/

theorem listedCode_eq_none {p : Nat} {l : List (Nat × Function7)} (h : ∀ e ∈ l, e.1 ≠ p) :
    listedCode p l = none := by
  induction l with
  | nil => rfl
  | cons e rest ih =>
    obtain ⟨he, hrest⟩ := List.forall_mem_cons.mp h
    rw [listedCode, if_neg he, ih hrest]

/-- The default of FunctionCode: 8h + d needs no reduction in seven bits. -/
theorem toNat_functionCode {h d : Nat} (hh : h < 16) (hd : d < 8) :
    (functionCode (10 * h + d)).toNat = 8 * h + d := by
  rw [functionCode, BitVec.toNat_ofNat]
  omega

/-- Settles O5: the default by arithmetic, the other two by the search of the list. -/
theorem functionNumbers : Obligations.FunctionNumbers := by
  unfold Obligations.FunctionNumbers
  refine ⟨fun h d hh hd => ⟨toNat_functionCode hh hd, ?_⟩, fun c p hp => ?_,
    fun c p f rest hc => ?_⟩
  · rw [printedFunction, toNat_functionCode hh hd]
    omega
  · rw [Installation.code, listedCode_eq_none hp]
  · rw [Installation.code, hc, listedCode, if_pos rfl]

end Sys2Proof.Claims
end

section
/-!
PROOF. The step and the invariant of the state (spec/10_state.md, spec/20_memory.md): what the
outside, an undescribed continuation and an order can change, and that each keeps the invariant.
-/

namespace Sys2Proof.Claims

open Sys2Proof.Machine

variable {s t u : State}

/-! ## The store -/

/-- The first address of a canonical store does not read as cold. -/
theorem read_ne_cold_of_wfFrom {lo b : Nat} {v : Word} {m : Memory}
    (h : Memory.wfFrom lo ((b, v) :: m) = true) : Memory.read ((b, v) :: m) b ≠ coldWord := by
  rw [Memory.wfFrom_cons] at h
  rw [Memory.read_cons, if_pos rfl]
  exact h.2.1

theorem eq_of_read_eq {lo : Nat} {m m' : Memory} (hm : Memory.wfFrom lo m = true)
    (hm' : Memory.wfFrom lo m' = true) (h : ∀ a, m.read a = m'.read a) : m = m' := by
  induction m generalizing lo m' with
  | nil =>
    cases m' with
    | nil => rfl
    | cons p' rest' => exact absurd (h p'.1).symm (read_ne_cold_of_wfFrom hm')
  | cons p rest ih =>
    obtain ⟨b, v⟩ := p
    cases m' with
    | nil => exact absurd (h b) (read_ne_cold_of_wfFrom hm)
    | cons p' rest' =>
      obtain ⟨b', v'⟩ := p'
      have hne := read_ne_cold_of_wfFrom hm
      have hne' := read_ne_cold_of_wfFrom hm'
      rw [h, Memory.read_cons] at hne
      rw [← h, Memory.read_cons] at hne'
      rw [Memory.wfFrom_cons] at hm hm'
      obtain ⟨-, -, hrest⟩ := hm
      obtain ⟨-, -, hrest'⟩ := hm'
      have hb : b = b' := by
        rcases Nat.lt_trichotomy b b' with hlt | heq | hlt
        · rw [if_neg (by omega), Memory.read_below hrest' (by omega)] at hne
          exact absurd rfl hne
        · exact heq
        · rw [if_neg (by omega), Memory.read_below hrest (by omega)] at hne'
          exact absurd rfl hne'
      subst hb
      have hv : v = v' := by simpa [Memory.read_cons] using h b
      have htail : ∀ a, Memory.read rest a = Memory.read rest' a := fun a => by
        by_cases ha : b = a
        · rw [Memory.read_below hrest (by omega), Memory.read_below hrest' (by omega)]
        · simpa [Memory.read_cons, ha] using h a
      rw [hv, ih hrest hrest' htail]

/-- What one write leaves of the other words. -/
theorem read_write_of_notMem {m : Memory} (hm : m.wf = true) {a b : Nat} (h : b ∉ [a]) (v : Word) :
    (m.write a v).read b = m.read b :=
  Memory.read_write_of_ne hm (fun e => h (List.mem_singleton.mpr e)) v

/-- Settles O14: the first entries agree, for a canonical store is cold below its first address, and
so do the rests. -/
theorem canonicalStoresAreEqual : Obligations.CanonicalStoresAreEqual := by
  unfold Obligations.CanonicalStoresAreEqual
  exact fun m m' hm hm' h => eq_of_read_eq hm hm' h

/-! ## The three kinds of step -/

theorem step_of_faulted {r : Fault} (h : s.faulted = some r) : step s = .fault r := by
  rw [step, stepWith, h]

theorem step_of_refused {r : Refusal} (hf : s.faulted = none) (h : s.refusedMark = some r) :
    step s = .refused r := by
  rw [step, stepWith, hf, h]

theorem step_of_leaving {l : Leaving} (hf : s.faulted = none) (hr : s.refusedMark = none)
    (h : s.leaving = some l) : step s = .next (finishLeaving l s) := by
  rw [step, stepWith, hf, hr, h]

theorem step_of_quiet (hf : s.faulted = none) (hr : s.refusedMark = none)
    (h : s.leaving = none) : step s = obeyNext exec s := by
  rw [step, stepWith, hf, hr, h]

/-- With pc in the store, the order there is obeyed once the inputs are taken. -/
theorem obeyNext_of_inStore (hpc : InStore (takeInputs s) (takeInputs s).pc) :
    obeyNext exec s = exec (fetchedInstr (takeInputs s)) (takeInputs s) := by
  rw [obeyNext, fetch, readWord_of_lt hpc]

theorem obeyNext_of_not_inStore (hpc : ¬ InStore (takeInputs s) (takeInputs s).pc) :
    obeyNext exec s = .fault (.storeBound (takeInputs s).pc) := by
  rw [obeyNext, fetch, readWord_of_ge (Nat.le_of_not_lt hpc)]

/-- A step completes the order that has left Extracode, or obeys the order at pc. -/
theorem step_next (h : step s = .next t) :
    (∃ l, s.leaving = some l ∧ t = finishLeaving l s) ∨
    (s.leaving = none ∧ InStore (takeInputs s) (takeInputs s).pc ∧
      exec (fetchedInstr (takeInputs s)) (takeInputs s) = .next t) := by
  cases hf : s.faulted with
  | some r => simp [step_of_faulted hf] at h
  | none =>
    cases hr : s.refusedMark with
    | some r => simp [step_of_refused hf hr] at h
    | none =>
      cases hl : s.leaving with
      | some l =>
        rw [step_of_leaving hf hr hl] at h
        exact .inl ⟨l, rfl, (Host.Outcome.next.inj h).symm⟩
      | none =>
        rw [step_of_quiet hf hr hl] at h
        by_cases hpc : InStore (takeInputs s) (takeInputs s).pc
        · exact .inr ⟨rfl, hpc, obeyNext_of_inStore hpc ▸ h⟩
        · rw [obeyNext_of_not_inStore hpc] at h
          cases h

/-! ## What the outside can change (R50, log 44) -/

/-- t is s after something the outside may do. -/
structure OutsideChange (s t : State) : Prop where
  frame : t = { s with mem := t.mem, xcKey := t.xcKey, opt := t.opt, lockouts := t.lockouts }
  lockouts : ∀ u : Fin 7, t.lockout u = { s.lockout u with current := (t.lockout u).current }
  currents : ∀ u : Fin 7, (t.lockout u).current = (s.lockout u).current ∨
    (t.lockout u).current.toNat < 2 ^ s.inst.addrBits
  wf : s.mem.wf = true → t.mem.wf = true
  within : s.mem.within s.inst.storeSize = true → t.mem.within s.inst.storeSize = true
  words : s.mem.wf = true → ∀ a, t.mem.read a ≠ s.mem.read a → InStore s a ∧
    ∃ u : Fin 7, lockedOut (s.lockout u) a = true

theorem OutsideChange.refl (s : State) : OutsideChange s s :=
  ⟨rfl, fun _ => rfl, fun _ => .inl rfl, id, id, fun _ _ h => absurd rfl h⟩

theorem OutsideChange.inst (h : OutsideChange s t) : t.inst = s.inst := by rw [h.frame]

/-- A current address takes no part in what a tester locks out (R95). -/
theorem OutsideChange.lockedOut_eq (h : OutsideChange s t) (u : Fin 7) (a : Nat) :
    lockedOut (t.lockout u) a = lockedOut (s.lockout u) a := by rw [h.lockouts u]; rfl

theorem OutsideChange.trans (h : OutsideChange s t) (h' : OutsideChange t u) :
    OutsideChange s u where
  frame := by
    have e := h'.frame
    rw [h.frame] at e
    exact e
  lockouts := fun k => by rw [h'.lockouts k, h.lockouts k]
  currents := fun k => by
    obtain e | hlt := h'.currents k
    · rw [e]; exact h.currents k
    · exact .inr (h.inst ▸ hlt)
  wf := fun w => h'.wf (h.wf w)
  within := fun w => by
    have hw := h'.within (h.inst.symm ▸ h.within w)
    rwa [h.inst] at hw
  words := fun w a ha => by
    by_cases hta : t.mem.read a = s.mem.read a
    · obtain ⟨hs, k, hk⟩ := h'.words (h.wf w) a (hta.symm ▸ ha)
      exact ⟨by rwa [InStore, h.inst] at hs, k, h.lockedOut_eq k a ▸ hk⟩
    · exact h.words w a hta

theorem OutsideChange.transfer {k : Fin 7} {a : Addr} (h : transferAllowed s k a = true)
    (v : Word) : OutsideChange s (s.putWord a.toNat v) := by
  simp only [transferAllowed, Bool.and_eq_true, decide_eq_true_eq] at h
  obtain ⟨⟨⟨hactive, hlower⟩, hupper⟩, hstore⟩ := h
  refine ⟨rfl, fun _ => rfl, fun _ => .inl rfl, fun w => Memory.wf_write w _ v,
    fun w => Memory.within_write w hstore v, fun w b hb => ?_⟩
  obtain rfl : b = a.toNat := by
    by_contra hne
    exact hb (Memory.read_write_of_ne w hne v)
  exact ⟨hstore, k, by simp [lockedOut, hactive, hlower, hupper]⟩

theorem OutsideChange.current (s : State) (k : Fin 7) (n : Nat) :
    OutsideChange s (s.setLockout k { s.lockout k with current := toAddr s.inst n }) where
  frame := rfl
  lockouts := fun u => by
    by_cases h : k = u
    · subst h; simp
    · rw [State.lockout_setLockout_of_ne _ h]
  currents := fun u => by
    by_cases h : k = u
    · subst h
      rw [State.lockout_setLockout_self]
      exact .inr (toAddr_lt _ _)
    · rw [State.lockout_setLockout_of_ne _ h]
      exact .inl rfl
  wf := id
  within := id
  words := fun _ _ h => absurd rfl h

theorem takeInput_outsideChange (s : State) (e : Input) : OutsideChange s (takeInput s e) := by
  cases e with
  | handkey b => exact ⟨rfl, fun _ => rfl, fun _ => .inl rfl, id, id, fun _ _ h => absurd rfl h⟩
  | options p => exact ⟨rfl, fun _ => rfl, fun _ => .inl rfl, id, id, fun _ _ h => absurd rfl h⟩
  | transfer k a v =>
    simp only [takeInput]
    split
    · exact .transfer ‹_› v
    · exact .refl s
  | current k a =>
    simp only [takeInput]
    split
    · exact .current s k _
    · exact .refl s

theorem foldl_takeInput_outsideChange (l : List Input) (s : State) :
    OutsideChange s (l.foldl takeInput s) := by
  induction l generalizing s with
  | nil => exact .refl s
  | cons e rest ih => exact (takeInput_outsideChange s e).trans (ih _)

/-- What is taken between two orders is what the waiting inputs change; then none is waiting. -/
theorem takeInputs_outsideChange (s : State) :
    ∃ u, OutsideChange s u ∧ takeInputs s = { u with inputs := [] } :=
  ⟨_, foldl_takeInput_outsideChange s.inputs s, rfl⟩

/-- Settles O10: each input changes no more than the outside may, and so do they in a row. -/
theorem outsideIsConfined : Obligations.OutsideIsConfined := by
  unfold Obligations.OutsideIsConfined
  intro s hm
  obtain ⟨u, hu, e⟩ := takeInputs_outsideChange s
  refine ⟨?_, ?_, ?_⟩
  · rw [e, hu.frame]
  · rw [e]; exact hu.lockouts
  · rw [e]; exact hu.words hm

/-! ## What an undescribed continuation can change (R158, log 23) -/

/-- t is s after an undescribed continuation. -/
structure OpenChange (s t : State) : Prop where
  frame : t = { s with mem := t.mem, pc := t.pc, j := t.j, ovr := t.ovr }
  pc : t.pc < 2 ^ s.inst.addrBits
  j : t.j.toNat < 2 ^ s.inst.jBits
  wf : s.mem.wf = true → t.mem.wf = true
  within : s.mem.within s.inst.storeSize = true → t.mem.within s.inst.storeSize = true
  beyond : s.mem.wf = true → ∀ a, s.inst.storeSize ≤ a → t.mem.read a = s.mem.read a

theorem OpenChange.inst (h : OpenChange s t) : t.inst = s.inst := by rw [h.frame]

theorem applyOpen_pc (s : State) (e : OpenEffect) :
    (applyOpen s e).pc = (toAddr s.inst e.pc.toNat).toNat := by rw [applyOpen_frame]

theorem applyOpen_j (s : State) (e : OpenEffect) : (applyOpen s e).j = toLink s.inst e.j := by
  rw [applyOpen_frame]

theorem applyOpen_ovr (s : State) (e : OpenEffect) : (applyOpen s e).ovr = e.ovr := by
  rw [applyOpen_frame]

theorem applyOpen_openChange (s : State) (e : OpenEffect) : OpenChange s (applyOpen s e) where
  frame := by rw [applyOpen_pc, applyOpen_j, applyOpen_ovr]; exact applyOpen_frame s e
  pc := by rw [applyOpen_pc]; exact toAddr_lt _ _
  j := by rw [applyOpen_j]; exact toLink_lt _ _
  wf := applyOpen_wf e
  within := applyOpen_within e
  beyond := fun w _ ha => applyOpen_beyond e w ha

theorem OpenChange.trans (h : OpenChange s t) (h' : OpenChange t u) : OpenChange s u where
  frame := by
    have e := h'.frame
    rw [h.frame] at e
    exact e
  pc := h.inst ▸ h'.pc
  j := h.inst ▸ h'.j
  wf := fun w => h'.wf (h.wf w)
  within := fun w => by
    have hw := h'.within (h.inst.symm ▸ h.within w)
    rwa [h.inst] at hw
  beyond := fun w a ha => by
    rw [h'.beyond (h.wf w) a (by rw [h.inst]; exact ha), h.beyond w a ha]

/-- What follows the order that left Extracode is one undescribed continuation or two. -/
theorem finishLeaving_openChange (l : Leaving) (s : State) :
    OpenChange { s with leaving := none } (finishLeaving l s) := by
  cases l with
  | abandonedBy23E => exact applyOpen_openChange _ _
  | leftBy87 r =>
    show OpenChange _ (normalEffects87 r { s with leaving := none })
    obtain ⟨-, e⟩ | ⟨-, e', e⟩ := normalEffects87_cases r { s with leaving := none }
    · rw [e]; exact applyOpen_openChange _ _
    · rw [e]; exact (applyOpen_openChange _ _).trans (applyOpen_openChange _ _)

/-- Settles O8: the step carries out the continuation, one undescribed effect or two, and none but
the normal effects where the jump was not successful. -/
theorem leavingGoesOn : Obligations.LeavingGoesOn := by
  unfold Obligations.LeavingGoesOn
  intro s l hb hf hr hl
  have hc := finishLeaving_openChange l s
  refine ⟨_, step_of_leaving hf hr hl, hc.pc, hc.frame,
    fun hm a ha => hc.beyond hm a (Nat.le_of_not_lt ha), ?_⟩
  rintro r rfl hj
  have e : finishLeaving (.leftBy87 r) s = applyOpen { s with leaving := none } r.effect := by
    simp [finishLeaving, normalEffects87, hj]
  rw [e, applyOpen_pc, applyOpen_j, applyOpen_ovr, toNat_toAddr _ _ hb]
  exact ⟨rfl, rfl, rfl⟩

/-! ## The invariant -/

section Invariant

variable (h : s.Inv)
include h

theorem inv_addrBits : 15 ≤ s.inst.addrBits := by
  have hw := h.inst
  simp only [Installation.wf, Bool.and_eq_true, decide_eq_true_eq] at hw
  omega

theorem inv_storeSize : s.inst.storeSize ≤ 2 ^ s.inst.addrBits := by
  have hw := h.inst
  simp only [Installation.wf, Bool.and_eq_true, decide_eq_true_eq] at hw
  omega

/-- An address the hardware fixes fits the address registers (R49). -/
theorem inv_extracodeStart : extracodeStart ≤ 2 ^ s.inst.addrBits :=
  Nat.le_trans (by decide : extracodeStart ≤ 2 ^ 15)
    (Nat.pow_le_pow_right (by decide) (inv_addrBits h))

theorem inv_storeChange (hu : StoreChange s u) : u.Inv := by
  have hi : State.Inv { s with mem := u.mem } :=
    { h with mem := hu.wf h.mem, within := hu.within h.within }
  rwa [← hu.frame] at hi

theorem inv_advance (hpc : s.pc < 2 ^ s.inst.addrBits) : s.advance.Inv := { h with pc := hpc }

theorem inv_skipDraws (n : Nat) : (s.skipDraws n).Inv := { h with }

theorem inv_raiseOvr (b : Bool) : (s.raiseOvr b).Inv := { h with }

theorem inv_setOvr (b : Bool) : (s.setOvr b).Inv := { h with }

theorem inv_actIndicators (x : Field15) : (s.actIndicators x).Inv := { h with }

theorem inv_takeReply : s.takeReply.Inv := { h with }

theorem inv_setW {v : Addr} (hv : v.toNat < 2 ^ s.inst.addrBits) : (s.setW v).Inv :=
  { h with w := hv }

theorem inv_leave (l : Leaving) : (s.leave l).Inv :=
  { h with entry := rfl, entryF := fun _ e => by simp at e, left := fun _ => rfl }

theorem inv_emit {e : BusEvent} (he : e.wf = true) : (s.emit e).Inv :=
  { h with
    bus := fun e' he' => by
      obtain hm | hm := List.mem_append.mp he'
      · exact h.bus e' hm
      · rw [List.mem_singleton.mp hm]; exact he }

theorem inv_setLockout (k : Fin 7) {l : Lockout} (hl : l.wf s.inst.addrBits = true) :
    (s.setLockout k l).Inv :=
  { h with
    lockouts := fun u => by
      by_cases e : k = u
      · subst e
        rw [State.lockout_setLockout_self]
        exact hl
      · rw [State.lockout_setLockout_of_ne _ e]
        exact h.lockouts u }

theorem inv_sendControl (o : Operands) : (sendControl o s).Inv := by
  unfold sendControl
  split
  · exact inv_emit h rfl
  · exact h

theorem inv_setOutOfAction (r : TesterRegister) (y : Half) : (setOutOfAction s r y).Inv := by
  unfold setOutOfAction
  split
  · exact h
  · split
    · exact h
    · exact inv_setLockout h _ (h.lockouts _)

theorem inv_loadRegister (r : TesterRegister) (xv : Word) : (loadRegister s r xv).Inv := by
  have ha : (addrOf s.inst xv).toNat < 2 ^ s.inst.addrBits := toAddr_lt _ _
  have hl := fun k => h.lockouts k
  simp only [Lockout.wf, Bool.and_eq_true, decide_eq_true_eq] at hl
  cases r with
  | resLower =>
    have hlower : (loadRegister s .resLower xv).res.lower.toNat =
        (addrOf s.inst xv).toNat - (addrOf s.inst xv).toNat % 64 := by
      have := (addrOf s.inst xv).isLt
      simp only [loadRegister, BitVec.toNat_ofNat]
      omega
    exact { h with resLower := by rw [hlower]; exact Nat.lt_of_le_of_lt (Nat.sub_le _ _) ha
                   resAligned := by rw [hlower]; omega }
  | resUpper => exact { h with resUpper := ha }
  | lkLower k => exact inv_setLockout h k (by simp [Lockout.wf, hl k, ha])
  | lkUpper k => exact inv_setLockout h k (by simp [Lockout.wf, hl k, ha])
  | lkCurrent k => exact inv_setLockout h k (by simp [Lockout.wf, hl k, ha])
  | lkSW k => exact inv_setLockout h k (by simp [Lockout.wf, hl k])

theorem inv_entered {o : Order} (hc : (entryCause o s).isSome = true)
    (hs : entryLink < s.inst.storeSize) (hl : s.leaving = none) : (entered o s).Inv :=
  have hstart := inv_extracodeStart h
  have hlisted := entering_of_entryCause hc
  { inv_storeChange h (entered_storeChange o hs) with
    pc := hstart
    entry := rfl
    entryF := fun f hf => Option.some.inj hf ▸ hlisted
    left := fun hsome => by
      have e : (entered o s).leaving = none := hl
      rw [e] at hsome
      cases hsome }

end Invariant

/-- The General Request has the form of R100. -/
theorem wf_generalRequest (x : Field15) : (BusEvent.generalRequest (requestChannels x)).wf = true :=
  decide_eq_true BitVec.extractLsb'_append_eq_left

/-- W after an 87 is an address (R80). -/
theorem updateW_lt (h : s.Inv) (f : Function7) (x : Field15) (yv : Word) :
    (updateW s f x yv).toNat < 2 ^ s.inst.addrBits := by
  unfold updateW
  split
  · exact h.w
  · exact toAddr_lt _ _

/-- Every order obeyed in the store keeps the invariant. -/
theorem inv_orderChange {i : Instr} (h : s.Inv) (hpc : InStore s s.pc) (hl : s.leaving = none)
    (hc : OrderChange s i t) : t.Inv := by
  have hlt : s.pc < 2 ^ s.inst.addrBits := Nat.lt_of_lt_of_le hpc (inv_storeSize h)
  have store : ∀ {u : State}, StoreChange s u → u.Inv ∧ u.pc < 2 ^ u.inst.addrBits := fun hu =>
    ⟨inv_storeChange h hu, by rw [hu.frame]; exact hlt⟩
  cases hc with
  | store n hu => exact inv_advance (inv_skipDraws (store hu).1 n) (store hu).2
  | card ov hu => exact inv_advance (inv_raiseOvr (store hu).1 ov) (store hu).2
  | @bus o _ hu =>
    have hsent := inv_emit (e := .busIn (busDollops s).1 (busDollops s).2)
      (inv_emit (store hu).1 (wf_generalRequest o.x)) rfl
    refine inv_advance (inv_sendControl (inv_skipDraws (inv_takeReply hsent) 2) o) ?_
    rw [sendControl_frame]
    exact (store hu).2
  | @load o r hr =>
    refine inv_advance (inv_loadRegister h r _) ?_
    rw [loadRegister_frame]
    exact hlt
  | @readBack o r _ hr hu =>
    refine inv_advance (inv_setOutOfAction (inv_skipDraws (store hu).1 1) r o.y) ?_
    rw [setOutOfAction_frame]
    exact (store hu).2
  | setW => exact inv_advance (inv_setW h (toAddr_lt _ _)) hlt
  | indicate hx => exact inv_advance (inv_actIndicators h _) hlt
  | abandon hx => exact inv_leave (inv_setOvr (inv_actIndicators h _) _) _
  | jump hf => exact inv_leave (inv_setW h (updateW_lt h _ _ _)) _
  | enter ha hx hcause hs => exact inv_entered h hcause hs hl

theorem inv_outsideChange (h : s.Inv) (hu : OutsideChange s u) : u.Inv := by
  have hlock : ∀ k : Fin 7, (u.lockout k).wf s.inst.addrBits = true := fun k => by
    have hk := h.lockouts k
    simp only [Lockout.wf, Bool.and_eq_true, decide_eq_true_eq] at hk ⊢
    obtain ⟨⟨hlower, hupper⟩, hcurrent⟩ := hk
    rw [hu.lockouts k]
    refine ⟨⟨hlower, hupper⟩, ?_⟩
    obtain e | hlt := hu.currents k
    · rw [e]; exact hcurrent
    · exact hlt
  have hi : State.Inv
      { s with mem := u.mem, xcKey := u.xcKey, opt := u.opt, lockouts := u.lockouts } :=
    { h with mem := hu.wf h.mem, within := hu.within h.within, lockouts := hlock }
  rwa [← hu.frame] at hi

theorem inv_takeInputs (h : s.Inv) : (takeInputs s).Inv := by
  obtain ⟨u, hu, e⟩ := takeInputs_outsideChange s
  rw [e]
  exact { inv_outsideChange h hu with }

/-- What the outside does takes no part in leaving. -/
theorem takeInputs_leaving (s : State) : (takeInputs s).leaving = s.leaving := by
  obtain ⟨u, hu, e⟩ := takeInputs_outsideChange s
  rw [e, hu.frame]

theorem inv_openChange (h : s.Inv) (hu : OpenChange s u) : u.Inv := by
  have hi : State.Inv { s with mem := u.mem, pc := u.pc, j := u.j, ovr := u.ovr } :=
    { h with mem := hu.wf h.mem, within := hu.within h.within, pc := Nat.le_of_lt hu.pc, j := hu.j }
  rwa [← hu.frame] at hi

/-- Settles O12: a step completes what left Extracode, or takes the inputs and obeys an order of the
store, and each of these keeps the invariant. -/
theorem stepKeepsInvariant : Obligations.StepKeepsInvariant := by
  unfold Obligations.StepKeepsInvariant
  intro s t h hstep
  obtain ⟨l, -, rfl⟩ | ⟨hl, hpc, hexec⟩ := step_next hstep
  · have hclear : State.Inv { s with leaving := none } :=
      { h with left := fun e => by cases e }
    exact inv_openChange hclear (finishLeaving_openChange l s)
  · exact inv_orderChange (inv_takeInputs h) hpc ((takeInputs_leaving s).trans hl)
      (exec_next hexec)

/-- Settles O11: every field of the reset state is a closed value. -/
theorem resetHoldsInvariant : Obligations.ResetHoldsInvariant where
  inst := by decide
  mem := rfl
  within := rfl
  pc := Nat.zero_le _
  w := by decide
  j := by decide
  resLower := by decide
  resAligned := rfl
  resUpper := by decide
  lockouts := by decide
  entry := rfl
  entryF := fun _ h => by cases h
  bus := fun _ h => absurd h List.not_mem_nil
  left := fun _ => rfl

/-- Settles O13: the reset state, read off field by field. -/
theorem resetAsSpecified : Obligations.ResetAsSpecified := by
  unfold Obligations.ResetAsSpecified
  exact ⟨rfl, rfl, rfl, rfl, rfl⟩

/-! ## Marks, fetch, and a placed order -/

theorem recorded_of_faulted {r : Fault} (h : s.faulted = some r) :
    s.recorded = { s with faulted := some r } := by
  rw [State.recorded, step_of_faulted h]

theorem recorded_of_refused {r : Refusal} (hf : s.faulted = none) (h : s.refusedMark = some r) :
    s.recorded = { s with refusedMark := some r } := by
  rw [State.recorded, step_of_refused hf h]

/-- Settles O7: a recorded step of a marked state records the same mark again; by induction on the
number of steps. -/
theorem marksAreSticky : Obligations.MarksAreSticky := by
  unfold Obligations.MarksAreSticky
  intro s n
  induction n generalizing s with
  | zero => exact ⟨fun _ h => h, fun _ hf h => ⟨h, hf⟩⟩
  | succ n ih =>
    refine ⟨fun r h => ?_, fun r hf h => ?_⟩
    · exact (ih s.recorded).1 r (by rw [recorded_of_faulted h])
    · refine (ih s.recorded).2 r ?_ ?_ <;> rw [recorded_of_refused hf h]
      exact hf

theorem orderOfWord_of_listed {w : Word} {o : Order} (h : listedOrder w s.inst.decode = some o) :
    orderOfWord s w = o := by
  rw [orderOfWord, h]

/-- Settles O6: a quiet step takes the inputs and fetches, and a listed word's record is the listed
one. -/
theorem stepObeysDecodedOrder : Obligations.StepObeysDecodedOrder := by
  unfold Obligations.StepObeysDecodedOrder
  intro s u hf hr hl hu
  subst hu
  rw [step_of_quiet hf hr hl]
  refine ⟨fun hpc => ?_, obeyNext_of_not_inStore⟩
  have hrun : obeyNext exec s = exec (decodeOrder (takeInputs s).inst.code
      ((takeInputs s).xcFF || (takeInputs s).xcKey) (orderOfWord (takeInputs s)
        ((takeInputs s).mem.read (takeInputs s).pc))) (takeInputs s) := obeyNext_of_inStore hpc
  exact ⟨hrun, fun o ho => by rw [hrun, orderOfWord_of_listed ho]⟩

theorem fetchAddress_lt (h : InStore s 0) : fetchAddress s < s.inst.storeSize := by
  unfold fetchAddress
  split
  · assumption
  · exact h

/-- A placed order is the one fetched: Decode knows its word, and the mode is its own. -/
theorem fetchedInstr_placeInstr {i : Instr} (hm : s.mem.wf = true)
    (hc : CodesDistinct s.inst.code) (hw : WellFormed s.inst.code i) :
    fetchedInstr (s.placeInstr i) = i := by
  have hword : (s.placeInstr i).mem.read (s.placeInstr i).pc = placedWord i :=
    Memory.read_write_self hm _ _
  have horder : orderOfWord (s.placeInstr i) (placedWord i) = i.order s.inst.code :=
    orderOfWord_of_listed (if_pos rfl)
  have hmode : (s.placeInstr i).xcActive = i.active := by
    show (i.active || (s.xcKey && i.active)) = i.active
    cases i.active <;> simp
  rw [fetchedInstr, hword, horder, hmode]
  exact decodeOrder_order i _ hc hw

/-- Settles O9: nothing else is pending in the state with the order placed, so the step fetches
it. -/
theorem placedOrderRuns : Obligations.PlacedOrderRuns := by
  unfold Obligations.PlacedOrderRuns
  intro s nbits w i hm h0 hc hwf hi
  have hplace : s.withFetchWord nbits w = s.placeInstr i := by
    rw [State.withFetchWord, placeTableWord, hi]
  have hfetch : obeyNext exec (s.placeInstr i) =
      exec (fetchedInstr (s.placeInstr i)) (s.placeInstr i) :=
    obeyNext_of_inStore (s := s.placeInstr i) (fetchAddress_lt h0)
  rw [hplace, step_of_quiet rfl rfl rfl, hfetch, fetchedInstr_placeInstr hm hc hwf]

end Sys2Proof.Claims
end

section
/-!
PROOF. The rules over all orders (spec/10_state.md): who writes what. The ten ways in which an order
can change the state (`exec_next`) are first written as records of the fields they have in them.
-/

namespace Sys2Proof.Claims

open Sys2Proof.Machine

variable {s t u : State} {i : Instr}

/-! ## The fields of each change -/

/-- The control dollop is the only event `sendControl` adds (R102). -/
theorem bus_sendControl (o : Operands) (s : State) : (sendControl o s).bus =
    s.bus ++ if o.a3 then [.controlDollop (o.y.extractLsb' 0 12)] else [] := by
  unfold sendControl
  split
  · rfl
  · exact (List.append_nil _).symm

/-- 21E takes the tester of its register out of action if the bit of Y is 0, and no other (R94). -/
theorem lockout_setOutOfAction (s : State) (r : TesterRegister) (y : Half) (k : Fin 7) :
    (setOutOfAction s r y).lockout k = { s.lockout k with
      active := (s.lockout k).active &&
        !(decide (testerOf r = some k) && !y.getLsbD (outBitNumber s.inst)) } := by
  unfold setOutOfAction
  cases testerOf r with
  | none => simp
  | some j =>
    cases y.getLsbD (outBitNumber s.inst) with
    | true => simp
    | false =>
      by_cases h : j = k
      · subst h; simp
      · simp [State.lockout_setLockout_of_ne _ h, h]

/-- So a tester is as before or out of action. -/
theorem lockout_setOutOfAction_cases (s : State) (r : TesterRegister) (y : Half) (k : Fin 7) :
    (setOutOfAction s r y).lockout k = s.lockout k ∨
    (setOutOfAction s r y).lockout k = { s.lockout k with active := false } := by
  rw [lockout_setOutOfAction]
  cases decide (testerOf r = some k) && !y.getLsbD (outBitNumber s.inst) with
  | true => exact .inr (by simp)
  | false => exact .inl (by simp)

/-- `OrderChange`, the changed fields alone. -/
inductive FieldsChange (s : State) : Instr → State → Prop where
  | plain {i : Instr} (m : Memory) (n : Nat) :
      FieldsChange s i { s with mem := m, pc := s.pc + 1, draws := n }
  | card {o : Operands} (m : Memory) (ov : Bool) :
      FieldsChange s (.op102E o) { s with mem := m, pc := s.pc + 1, ovr := s.ovr || ov }
  | bus {o : Operands} (m : Memory) (e : List BusEvent) (r : List BusReply) (n : Nat) :
      FieldsChange s (.op22E o)
        { s with mem := m, pc := s.pc + 1, bus := s.bus ++ e, replies := r, draws := n }
  | load {o : Operands} (r : Reservation) (l : Vector Lockout 7) :
      FieldsChange s (.op20E o) { s with pc := s.pc + 1, res := r, lockouts := l }
  | readBack {o : Operands} (m : Memory) (l : Vector Lockout 7) (n : Nat) :
      (∀ k : Fin 7, l[k] = s.lockout k ∨ l[k] = { s.lockout k with active := false }) →
      FieldsChange s (.op21E o) { s with mem := m, pc := s.pc + 1, lockouts := l, draws := n }
  | setW {o : Operands} (w : Addr) : FieldsChange s (.op107E o) { s with pc := s.pc + 1, w := w }
  | indicate {o : Operands} (d : Indicators) :
      FieldsChange s (.op23E o) { s with pc := s.pc + 1, ind := d }
  | abandon {o : Operands} (d : Indicators) (b : Bool) : o.x.getLsbD 5 = true →
      FieldsChange s (.op23E o) { s with ind := d, ovr := b, xcFF := false, entryF := none,
                                         leaving := some .abandonedBy23E }
  | jump {o : Operands} (w : Addr) :
      FieldsChange s (.op87E o) { s with w := w, xcFF := false, entryF := none,
                                         leaving := some (.leftBy87 (Config.normal87 o s)) }
  | enter {i : Instr} (m : Memory) (n : Nat) : i.active = false → s.xcActive = false →
      FieldsChange s i { s with mem := m, pc := 517, xcFF := true, draws := n,
                                entryF := some (i.function s.inst.code) }

/-- What a change of the store alone leaves is the state before but for the store. -/
theorem exists_mem_of_storeChange (h : StoreChange s u) : ∃ m, u = { s with mem := m } :=
  ⟨_, h.frame⟩

theorem fieldsChange_of_orderChange (h : OrderChange s i t) : FieldsChange s i t := by
  cases h with
  | store n hu => obtain ⟨m, rfl⟩ := exists_mem_of_storeChange hu; exact .plain m _
  | card ov hu => obtain ⟨m, rfl⟩ := exists_mem_of_storeChange hu; exact .card m ov
  | bus hu =>
    obtain ⟨m, rfl⟩ := exists_mem_of_storeChange hu
    rw [sendControl_frame, bus_sendControl]
    simp only [State.skipDraws_bus, State.takeReply_bus, State.emit_bus, List.append_assoc]
    exact .bus m _ _ _
  | load => rw [loadRegister_frame]; exact .load _ _
  | @readBack o r _ _ hu =>
    obtain ⟨m, rfl⟩ := exists_mem_of_storeChange hu
    have hk := lockout_setOutOfAction_cases (State.skipDraws { s with mem := m } 1) r o.y
    rw [setOutOfAction_frame]
    exact .readBack m _ _ hk
  | setW => exact .setW _
  | indicate => exact .indicate _
  | abandon hx => exact .abandon _ _ hx
  | jump => exact .jump _
  | enter ha hx => exact .enter _ _ ha hx

theorem exec_fieldsChange (h : exec i s = .next t) : FieldsChange s i t :=
  fieldsChange_of_orderChange (exec_next h)

/-! ## Who writes what -/

/-- Settles O15: only the changes of 87E and 107E have W in them. -/
theorem onlyJumpAndSetWriteW : Obligations.OnlyJumpAndSetWriteW := by
  unfold Obligations.OnlyJumpAndSetWriteW
  intro i s t h
  cases exec_fieldsChange h with
  | jump => exact .inr (.inl ⟨_, rfl⟩)
  | setW => exact .inr (.inr ⟨_, rfl⟩)
  | _ => exact .inl rfl

/-- Settles O16: only the changes of 102E and of a leaving 23E have OVR in them, and 102E ors into
it. -/
theorem onlyCardAndAbandonChangeOvr : Obligations.OnlyCardAndAbandonChangeOvr := by
  unfold Obligations.OnlyCardAndAbandonChangeOvr
  intro i s t h
  cases exec_fieldsChange h with
  | card m ov =>
    cases ov with
    | false => exact .inl (Bool.or_false _)
    | true => exact .inr (.inl ⟨Bool.or_true _, _, rfl⟩)
  | abandon d b hx => exact .inr (.inr ⟨_, rfl, hx⟩)
  | _ => exact .inl rfl

/-- Settles O17: entry is the second way, 87E and a leaving 23E are the third, and every other
change goes on to the next order in the same mode. -/
theorem modeChangesOnlySo : Obligations.ModeChangesOnlySo := by
  unfold Obligations.ModeChangesOnlySo
  intro i s t h
  cases exec_fieldsChange h with
  | enter m n ha hx => exact .inr (.inl ⟨hx, ha, rfl, rfl, rfl, rfl⟩)
  | jump => exact .inr (.inr ⟨.inl ⟨_, rfl, rfl⟩, rfl, rfl, rfl⟩)
  | abandon d b hx => exact .inr (.inr ⟨.inr ⟨_, rfl, hx, rfl⟩, rfl, rfl, rfl⟩)
  | _ => exact .inl ⟨rfl, rfl, rfl, rfl⟩

/-- Settles O18: only the changes of 20E and 21E have a tester in them, and that of 21E is its being
taken out of action. -/
theorem onlyTesterOrdersChangeTesters : Obligations.OnlyTesterOrdersChangeTesters := by
  unfold Obligations.OnlyTesterOrdersChangeTesters
  intro i s t h
  cases exec_fieldsChange h with
  | load => exact .inr (.inl ⟨_, rfl⟩)
  | readBack m l n hl => exact .inr (.inr ⟨⟨_, rfl⟩, rfl, hl⟩)
  | _ => exact .inl ⟨rfl, rfl⟩

/-- Settles O19: only the changes of 23E have the indicators in them, and only that of 22E the bus,
which it lengthens. -/
theorem indicatorsAndBusHaveOneWriter : Obligations.IndicatorsAndBusHaveOneWriter := by
  unfold Obligations.IndicatorsAndBusHaveOneWriter
  intro i s t h
  cases exec_fieldsChange h with
  | indicate => exact ⟨.inr ⟨_, rfl⟩, .inl rfl⟩
  | abandon => exact ⟨.inr ⟨_, rfl⟩, .inl rfl⟩
  | bus m e => exact ⟨.inl rfl, .inr ⟨⟨_, rfl⟩, e, rfl⟩⟩
  | _ => exact ⟨.inl rfl, .inl rfl⟩

/-- Settles O20: no change has any of these fields in it. -/
theorem noOrderWritesInputs : Obligations.NoOrderWritesInputs := by
  unfold Obligations.NoOrderWritesInputs
  intro i s t h
  cases exec_fieldsChange h <;> exact ⟨rfl, rfl, rfl, rfl, rfl, rfl, rfl⟩

/-- What an order does to the store is writes inside it, or nothing. -/
theorem mem_of_orderChange (h : OrderChange s i t) : ∃ u, StoreChange s u ∧ t.mem = u.mem := by
  cases h with
  | store n hu => exact ⟨_, hu, rfl⟩
  | card ov hu => exact ⟨_, hu, rfl⟩
  | bus hu => exact ⟨_, hu, by rw [sendControl_frame]; rfl⟩
  | load => exact ⟨s, .refl s, by rw [loadRegister_frame]; rfl⟩
  | readBack hr hu => exact ⟨_, hu, by rw [setOutOfAction_frame]; rfl⟩
  | enter ha hx hc hs => exact ⟨_, entered_storeChange _ hs, rfl⟩
  | _ => exact ⟨s, .refl s, rfl⟩

/-- Settles O21: writes inside the store keep it canonical and change no word outside it. -/
theorem ordersStayInStore : Obligations.OrdersStayInStore := by
  unfold Obligations.OrdersStayInStore
  intro i s t hm h
  obtain ⟨u, hu, e⟩ := mem_of_orderChange (exec_next h)
  rw [e]
  exact ⟨hu.wf hm, fun a ha => hu.beyond hm a (Nat.le_of_not_lt ha)⟩

end Sys2Proof.Claims
end

section
/-!
PROOF. Entry to Extracode (spec/60_exceptions.md R140 to R156): which orders enter, what they put
into the words 512 to 516, and what 87 and 23E make of it right afterwards.
-/

namespace Sys2Proof.Claims

open Sys2Proof.Machine

variable {s t u : State} {i : Instr} {p : Nat} {o : Operands}

/-! ## Lists of functions, spelled apart (R66, log 1) -/

theorem mem_functionsOf (c : Installation) {l : List Nat} (hp : p ∈ l) :
    c.code p ∈ functionsOf c l := List.mem_map_of_mem hp

/-- Where functions are spelled apart, F-bits are in a list of functions exactly if their function
is. -/
theorem mem_functionsOf_iff {c : Installation} (hc : CodesDistinct c.code) {l : List Nat}
    (hp : p ∈ printedFunctions) (hl : ∀ q ∈ l, q ∈ printedFunctions) :
    c.code p ∈ functionsOf c l ↔ p ∈ l := by
  refine ⟨fun h => ?_, mem_functionsOf c⟩
  obtain ⟨q, hq, e⟩ := List.mem_map.mp h
  rwa [← Laws.Encoding.printed_injective hc (hl q hq) hp e]

/-- A function of one list is not spelled as one of a list that has no function of the other. -/
theorem notMem_functionsOf {c : Installation} (hc : CodesDistinct c.code) {l l' : List Nat}
    (hp : p ∈ l) (hl' : ∀ q ∈ l', q ∈ printedFunctions)
    (hl : ∀ q ∈ l, q ∈ printedFunctions ∧ q ∉ l') : c.code p ∉ functionsOf c l' := fun h =>
  (hl p hp).2 ((mem_functionsOf_iff hc (hl p hp).1 hl').mp h)

/-! ## The conditional causes (R143, R144, R153) -/

theorem entryCause_of_division (hc : CodesDistinct s.inst.code)
    (hp : p ∈ [40, 41, 42, 43, 44, 45]) : entryCause ⟨s.inst.code p, o⟩ s =
      if quotientAppearsOutOfRange ⟨s.inst.code p, o⟩ s then some .ec5 else none := by
  rw [entryCause, if_neg (notMem_functionsOf hc hp (by decide) (by decide)),
    if_neg (notMem_functionsOf hc hp (by decide) (by decide)),
    if_neg (notMem_functionsOf hc hp (by decide) (by decide)),
    if_neg (notMem_functionsOf hc hp (by decide) (by decide)), if_pos (mem_functionsOf _ hp)]

theorem entryCause_of_helped (hc : CodesDistinct s.inst.code) (hp : p ∈ [101, 95]) :
    entryCause ⟨s.inst.code p, o⟩ s =
      if needsExtracodeHelp ⟨s.inst.code p, o⟩ s then some .ec6 else none := by
  rw [entryCause, if_neg (notMem_functionsOf hc hp (by decide) (by decide)),
    if_neg (notMem_functionsOf hc hp (by decide) (by decide)),
    if_neg (notMem_functionsOf hc hp (by decide) (by decide)),
    if_neg (notMem_functionsOf hc hp (by decide) (by decide)),
    if_neg (notMem_functionsOf hc hp (by decide) (by decide)), if_pos (mem_functionsOf _ hp)]

theorem entryCause_of_monitored (hc : CodesDistinct s.inst.code) :
    entryCause ⟨s.inst.code 156, o⟩ s = if s.monEng then some .ec7 else none := by
  have hp : 156 ∈ [156] := List.mem_singleton.mpr rfl
  rw [entryCause, if_neg (notMem_functionsOf hc hp (by decide) (by decide)),
    if_neg (notMem_functionsOf hc hp (by decide) (by decide)),
    if_neg (notMem_functionsOf hc hp (by decide) (by decide)),
    if_neg (notMem_functionsOf hc hp (by decide) (by decide)),
    if_neg (notMem_functionsOf hc hp (by decide) (by decide)),
    if_neg (notMem_functionsOf hc hp (by decide) (by decide)), if_pos rfl]

/-! ## Which orders enter -/

theorem obeyEntering_of_none (h : entryCause ⟨s.inst.code p, o⟩ s = none) :
    obeyEntering p o s = .refused (.normalOrder (s.inst.code p)) := by
  simp only [obeyEntering, h]

theorem obeyEntering_of_nested (h : (entryCause ⟨s.inst.code p, o⟩ s).isSome = true)
    (hx : s.xcActive = true) : obeyEntering p o s = .refused .nestedEntry := by
  obtain ⟨c, hc⟩ := Option.isSome_iff_exists.mp h
  simp only [obeyEntering, hc, hx, if_true]

/-- An order whose cause is a condition enters where it holds, and is refused where not. -/
theorem obeyEntering_of_condition {b : Bool} {c : Cause} (hm : s.mem.wf = true)
    (hx : s.xcActive = false) (hs : InStore s 516)
    (h : entryCause ⟨s.inst.code p, o⟩ s = if b then some c else none) :
    (b = true → ∃ t, obeyEntering p o s = .next t ∧ Entered s t) ∧
    (b = false → obeyEntering p o s = .refused (.normalOrder (s.inst.code p))) := by
  refine ⟨fun hb => obeyEntering_enters hm hx hs ?_, fun hb => obeyEntering_of_none ?_⟩
  · rw [h, if_pos hb]; rfl
  · rw [h, if_neg (Bool.not_eq_true b ▸ hb)]

/-- Settles O52: each of the five is an order of R140 whose cause always holds, so it enters. -/
theorem pairOrdersEnter : Obligations.PairOrdersEnter := by
  unfold Obligations.PairOrdersEnter
  intro o s hm hx hs p hp
  have horder : p ∈ enteringOrders o :=
    List.mem_of_mem_drop (i := 4) (List.mem_of_mem_take (i := 5) hp)
  have halways : p.2 ∈ alwaysEntering := List.mem_of_mem_drop (i := 4) (List.mem_map_of_mem hp)
  rw [exec_enteringOrders o s p horder]
  exact obeyEntering_enters_of_alwaysEntering halways o hm hx hs

/-- Settles O53: the cause of a division is its condition alone, functions being spelled apart. -/
theorem divisionsEnter : Obligations.DivisionsEnter := by
  unfold Obligations.DivisionsEnter
  intro o s hm hc hx hs p hp
  have horder : p ∈ enteringOrders o :=
    List.mem_of_mem_drop (i := 9) (List.mem_of_mem_take (i := 6) hp)
  have hdivision : p.2 ∈ [40, 41, 42, 43, 44, 45] := List.mem_map_of_mem hp
  rw [exec_enteringOrders o s p horder]
  exact obeyEntering_of_condition hm hx hs (entryCause_of_division hc hdivision)

/-- Settles O54: the cause of 101 and 95 is their condition alone, functions being spelled apart. -/
theorem helpedOrdersEnter : Obligations.HelpedOrdersEnter := by
  unfold Obligations.HelpedOrdersEnter
  intro o s hm hc hx hs p hp
  have horder : p ∈ enteringOrders o := by
    simp only [List.mem_cons, List.not_mem_nil, or_false] at hp
    obtain rfl | rfl := hp <;> simp [enteringOrders]
  have hhelped : p.2 ∈ [101, 95] := List.mem_map_of_mem hp
  rw [exec_enteringOrders o s p horder]
  exact obeyEntering_of_condition hm hx hs (entryCause_of_helped hc hhelped)

/-- Settles O55: the cause of 156 is MON_ENG alone, functions being spelled apart. -/
theorem monitoredOrderEnters : Obligations.MonitoredOrderEnters := by
  unfold Obligations.MonitoredOrderEnters
  intro o s hm hc hx hs
  obtain ⟨henter, hrefuse⟩ := obeyEntering_of_condition hm hx hs
    (entryCause_of_monitored (o := o) hc)
  exact ⟨fun h => henter (by simpa [State.monEng] using h),
    fun hmon heng => hrefuse (by simp [State.monEng, hmon, heng])⟩

/-- Settles O58: NORMAL asks for a cause only while XC_ACTIVE, and an order that can enter asks for
XC_ACTIVE only if it has a cause. -/
theorem normalOrdersRefused : Obligations.NormalOrdersRefused := by
  unfold Obligations.NormalOrdersRefused
  intro active f o s
  refine ⟨fun ha hc => ?_, fun h => ?_, fun hx p hp hc => ?_⟩
  · exact if_pos (by rw [ha, hc]; rfl)
  · refine if_neg ?_
    obtain ha | hc := h
    · simp [ha]
    · simp [hc]
  · rw [exec_enteringOrders o s p hp]
    exact obeyEntering_of_nested hc hx

/-! ## What an entry leaves behind -/

/-- The printed function of an order that can enter is one of the table's. -/
theorem printed_of_enteringOrders (hp : (i, p) ∈ enteringOrders o) : p ∈ printedFunctions := by
  have listed : ∀ q ∈ (enteringOrders o).map Prod.snd, q ∈ printedFunctions := by
    simp [enteringOrders, printedFunctions]
  exact listed p (List.mem_map_of_mem (f := Prod.snd) hp)

/-- An order that can enter and completes has entered. -/
theorem eq_entered_of_exec (hp : (i, p) ∈ enteringOrders o) (h : exec i s = .next t) :
    t = entered ⟨s.inst.code p, o⟩ s := by
  rw [exec_enteringOrders o s _ hp] at h
  obtain ⟨-, -, -, e⟩ := (obeyEntering_eq_next p o).mp h
  exact e.symm

/-- The five words of an entry, and every other word as before. -/
theorem read_entryStore (q : Order) (hm : s.mem.wf = true) (a : Nat) : (entryStore q s).read a =
    if a = 516 then entryWordLink s else if a = 515 then entryWordResult q s
    else if a = 514 then entryWordY q s else if a = 513 then entryWordFunction q s
    else if a = 512 then entryWordX q s else s.mem.read a := by
  have w1 := Memory.wf_write hm entryX (entryWordX q s)
  have w2 := Memory.wf_write w1 entryFunction (entryWordFunction q s)
  have w3 := Memory.wf_write w2 entryY (entryWordY q s)
  have w4 := Memory.wf_write w3 entryResult (entryWordResult q s)
  rw [entryStore, Memory.read_write w4, Memory.read_write w3, Memory.read_write w2,
    Memory.read_write w1, Memory.read_write hm]

theorem extractLsb'_putField_self {len lo : Nat} (w : Word) (v : BitVec len) (h : lo + len ≤ 48) :
    (putField w lo v).extractLsb' lo len = v := by
  apply BitVec.eq_of_getLsbD_eq
  intro j hj
  rw [BitVec.getLsbD_extractLsb', getLsbD_putField _ _ _ _ (by omega), if_pos (by omega)]
  simp [hj]

theorem extractLsb'_putField_of_disjoint {len lo lo' n : Nat} (w : Word) (v : BitVec len)
    (h : lo' + n ≤ 48) (hd : lo' + n ≤ lo ∨ lo + len ≤ lo') :
    (putField w lo v).extractLsb' lo' n = w.extractLsb' lo' n := by
  apply BitVec.eq_of_getLsbD_eq
  intro j hj
  rw [BitVec.getLsbD_extractLsb', getLsbD_putField _ _ _ _ (by omega), if_neg (by omega),
    BitVec.getLsbD_extractLsb']

theorem extractLsb'_putBit_of_disjoint {k lo n : Nat} (w : Word) (b : Bool) (h : lo + n ≤ 48)
    (hd : k < lo ∨ lo + n ≤ k) : (putBit w k b).extractLsb' lo n = w.extractLsb' lo n :=
  extractLsb'_putField_of_disjoint w _ h (by omega)

theorem getLsbD_putBit_self {k : Nat} (w : Word) (b : Bool) (h : k < 48) :
    (putBit w k b).getLsbD k = b := by
  rw [getLsbD_putBit _ _ _ _ h, if_pos rfl]

theorem getLsbD_putBit_of_ne {j k : Nat} (w : Word) (b : Bool) (h : j < 48) (hne : j ≠ k) :
    (putBit w k b).getLsbD j = w.getLsbD j := by
  rw [getLsbD_putBit _ _ _ _ h, if_neg hne]

/-- With zero fill the bits that no sentence names are 0 (R155). -/
theorem entryFillWord_of_zero (h : s.inst.entryFill = .zero) (n : Nat) :
    entryFillWord s n = 0#48 := by
  simp only [entryFillWord, h]

/-- The fields of word 512 (R146). -/
theorem entryWordX_fields (q : Order) (s : State) :
    (entryWordX q s).extractLsb' 0 15 = q.args.x ∧ (entryWordX q s).getLsbD 47 = s.monEng ∧
    (s.inst.entryFill = .zero → (entryWordX q s).extractLsb' 15 32 = 0#32) := by
  refine ⟨?_, getLsbD_putBit_self _ _ (by decide), fun hz => ?_⟩
  · rw [entryWordX, extractLsb'_putBit_of_disjoint _ _ (by decide) (by decide),
      extractLsb'_putField_self _ _ (by decide)]
  · rw [entryWordX, extractLsb'_putBit_of_disjoint _ _ (by decide) (by decide),
      extractLsb'_putField_of_disjoint _ _ (by decide) (by decide), entryFillWord_of_zero hz]
    rfl

/-- The fields of word 513 (R147; log 16). -/
theorem entryWordFunction_fields (q : Order) (s : State) :
    (entryWordFunction q s).extractLsb' 46 2 = q.f.extractLsb' 0 2 ∧
    (entryWordFunction q s).extractLsb' 0 4 = q.f.extractLsb' 2 4 ∧
    (entryWordFunction q s).getLsbD 28 = q.f.getLsbD 6 ∧
    (entryWordFunction q s).getLsbD 23 = q.args.a3 := by
  refine ⟨?_, ?_, ?_, getLsbD_putBit_self _ _ (by decide)⟩
  · rw [entryWordFunction, extractLsb'_putBit_of_disjoint _ _ (by decide) (by decide),
      extractLsb'_putBit_of_disjoint _ _ (by decide) (by decide),
      extractLsb'_putField_of_disjoint _ _ (by decide) (by decide),
      extractLsb'_putField_self _ _ (by decide)]
  · rw [entryWordFunction, extractLsb'_putBit_of_disjoint _ _ (by decide) (by decide),
      extractLsb'_putBit_of_disjoint _ _ (by decide) (by decide),
      extractLsb'_putField_self _ _ (by decide)]
  · rw [entryWordFunction, getLsbD_putBit_of_ne _ _ (by decide) (by decide),
      getLsbD_putBit_self _ _ (by decide)]

/-- Bits of word 513 that lie in no field come from the fill. -/
theorem entryWordFunction_fill (q : Order) {lo n : Nat} (hz : s.inst.entryFill = .zero)
    (h4 : 4 ≤ lo) (h23 : 23 < lo ∨ lo + n ≤ 23) (h28 : 28 < lo ∨ lo + n ≤ 28)
    (h46 : lo + n ≤ 46) : (entryWordFunction q s).extractLsb' lo n = 0#n := by
  rw [entryWordFunction, extractLsb'_putBit_of_disjoint _ _ (by omega) h23,
    extractLsb'_putBit_of_disjoint _ _ (by omega) h28,
    extractLsb'_putField_of_disjoint _ _ (by omega) (.inr h4),
    extractLsb'_putField_of_disjoint _ _ (by omega) (.inl h46), entryFillWord_of_zero hz,
    BitVec.extractLsb'_zero]

/-- The fields of word 514 (R149). -/
theorem entryWordY_fields (q : Order) (s : State) :
    (entryWordY q s).extractLsb' 0 24 = q.args.y ∧
    (entryWordY q s).getLsbD 47 = s.opt.fpUnrounded ∧
    (entryWordY q s).getLsbD 46 = s.opt.monOnOvr ∧
    (s.inst.entryFill = .zero → (entryWordY q s).extractLsb' 24 22 = 0#22) := by
  refine ⟨?_, ?_, getLsbD_putBit_self _ _ (by decide), fun hz => ?_⟩
  · rw [entryWordY, extractLsb'_putBit_of_disjoint _ _ (by decide) (by decide),
      extractLsb'_putBit_of_disjoint _ _ (by decide) (by decide),
      extractLsb'_putField_self _ _ (by decide)]
  · rw [entryWordY, getLsbD_putBit_of_ne _ _ (by decide) (by decide),
      getLsbD_putBit_self _ _ (by decide)]
  · rw [entryWordY, extractLsb'_putBit_of_disjoint _ _ (by decide) (by decide),
      extractLsb'_putBit_of_disjoint _ _ (by decide) (by decide),
      extractLsb'_putField_of_disjoint _ _ (by decide) (by decide), entryFillWord_of_zero hz]
    rfl

/-- The fields of word 515 (R150). -/
theorem entryWordResult_fields (q : Order) (s : State) :
    (entryWordResult q s).extractLsb' 0 15 = destOf q.args ∧
    (entryWordResult q s).getLsbD 46 = s.opt.monOnFpOvr ∧
    (entryWordResult q s).getLsbD 47 = secondOfPair s.inst q.f ∧
    (s.inst.entryFill = .zero → (entryWordResult q s).extractLsb' 15 31 = 0#31) := by
  refine ⟨?_, ?_, getLsbD_putBit_self _ _ (by decide), fun hz => ?_⟩
  · rw [entryWordResult, extractLsb'_putBit_of_disjoint _ _ (by decide) (by decide),
      extractLsb'_putBit_of_disjoint _ _ (by decide) (by decide),
      extractLsb'_putField_self _ _ (by decide)]
  · rw [entryWordResult, getLsbD_putBit_of_ne _ _ (by decide) (by decide),
      getLsbD_putBit_self _ _ (by decide)]
  · rw [entryWordResult, extractLsb'_putBit_of_disjoint _ _ (by decide) (by decide),
      extractLsb'_putBit_of_disjoint _ _ (by decide) (by decide),
      extractLsb'_putField_of_disjoint _ _ (by decide) (by decide), entryFillWord_of_zero hz]
    rfl

/-- The fields of word 516 (R151). -/
theorem entryWordLink_fields (hj : s.inst.jBits ≤ 47) :
    (entryWordLink s).extractLsb' 0 s.inst.jBits = (linkValue s).setWidth s.inst.jBits ∧
    (entryWordLink s).getLsbD 47 = s.ovr ∧
    (s.inst.entryFill = .zero → ∀ b, s.inst.jBits ≤ b → b < 47 →
      (entryWordLink s).getLsbD b = false) := by
  refine ⟨?_, getLsbD_putBit_self _ _ (by decide), fun hz b hb hb' => ?_⟩
  · rw [entryWordLink, extractLsb'_putBit_of_disjoint _ _ (by omega) (by omega),
      extractLsb'_putField_self _ _ (by omega)]
  · rw [entryWordLink, getLsbD_putBit_of_ne _ _ (by omega) (by omega),
      getLsbD_putField _ _ _ _ (by omega), if_neg (by omega), entryFillWord_of_zero hz]
    exact BitVec.getLsbD_zero

/-- DEST as the statements write it (R5). -/
theorem destOf_eq (o : Operands) : (match o.z with | some z => z | none => o.x) = destOf o := by
  rw [destOf]
  cases o.z <;> rfl

/-- Settles O56: each word is its fields put into the fill, one after the other, at places apart. -/
theorem entryInformation : Obligations.EntryInformation := by
  unfold Obligations.EntryInformation
  intro o s t i p hm hj hc hp h
  obtain rfl := eq_entered_of_exec hp h
  have hsecond : secondOfPair s.inst (s.inst.code p) = decide (p = 142 ∨ p = 154 ∨ p = 155) := by
    rw [secondOfPair, decide_eq_decide, mem_functionsOf_iff hc (printed_of_enteringOrders hp)
      (by decide)]
    simp
  have hread := read_entryStore ⟨s.inst.code p, o⟩ hm
  have hresult := entryWordResult_fields ⟨s.inst.code p, o⟩ s
  rw [hsecond, ← destOf_eq] at hresult
  simp only [entered]
  rw [hread 512, hread 514, hread 515, hread 516]
  exact ⟨entryWordX_fields _ s, entryWordY_fields _ s, hresult, entryWordLink_fields hj⟩

/-- Settles O57: the fields of word 513 are put in at places apart, the rest is fill. -/
theorem entryFunctionWord : Obligations.EntryFunctionWord := by
  unfold Obligations.EntryFunctionWord
  intro o s t i p hm hp h
  obtain rfl := eq_entered_of_exec hp h
  obtain ⟨hlow, hmiddle, htop, hform⟩ := entryWordFunction_fields ⟨s.inst.code p, o⟩ s
  have hread := read_entryStore ⟨s.inst.code p, o⟩ hm 513
  simp only [entered]
  rw [hread]
  refine ⟨hlow, hmiddle, htop, hform, fun hz => ⟨?_, ?_, ?_⟩⟩
  · exact entryWordFunction_fill _ hz (by decide) (by decide) (by decide) (by decide)
  · exact entryWordFunction_fill _ hz (by decide) (by decide) (by decide) (by decide)
  · exact entryWordFunction_fill _ hz (by decide) (by decide) (by decide) (by decide)

/-! ## 87 and 23E right after an entry -/

/-- Settles O59: the entry recorded the function it was by, and functions are spelled apart. -/
theorem pairKeepsW : Obligations.PairKeepsW := by
  unfold Obligations.PairKeepsW
  intro o q s u t i p hb hc hp h h87
  obtain rfl := eq_entered_of_exec hp h
  have hprinted := printed_of_enteringOrders hp
  have hw := w_of_exec87E (f := s.inst.code p) rfl h87
  refine ⟨fun h140 => ?_, fun h140 h141 => ?_⟩
  · exact hw.trans (updateW_of_pair (h140.imp (congrArg s.inst.code) (congrArg s.inst.code)) _ _)
  · rw [hw]
    refine toNat_updateW_of_not_pair hb (not_or.mpr ⟨fun e => h140 ?_, fun e => h141 ?_⟩) _ _
    · exact Laws.Encoding.printed_injective hc hprinted (by decide) e
    · exact Laws.Encoding.printed_injective hc hprinted (by decide) e

/-- Settles O60: word 516, which the entry wrote, has the OVR of before in its sign bit. -/
theorem abandonRestoresOvr : Obligations.AbandonRestoresOvr := by
  unfold Obligations.AbandonRestoresOvr
  intro o q s u t i p hm hp h hx hy h23
  obtain rfl := eq_entered_of_exec hp h
  obtain ⟨hx', -⟩ | ⟨-, rfl⟩ := exec23E_next h23
  · rw [hx] at hx'
    cases hx'
  · have hovr : ((entryStore ⟨s.inst.code p, o⟩ s).read q.y.toNat).getLsbD 47 = s.ovr := by
      rw [hy, read_entryStore _ hm]
      exact getLsbD_putBit_self _ _ (by decide)
    exact ⟨hovr, rfl, rfl, rfl⟩

end Sys2Proof.Claims
end

section
/-!
PROOF. The control orders 87E, 23E and 107E (spec/40_control_87_23E_107E.md).
-/

namespace Sys2Proof.Claims

open Sys2Proof.Machine

variable {s : State} {o : Operands}

/-! ## What each of them answers -/

theorem exec87E_of_not_inStore (h : ¬ InStore s o.y.toNat) :
    exec (.op87E o) s = .fault (.storeBound o.y.toNat) := by
  show exec87E o s = _
  rw [exec87E, readWord_of_ge (Nat.le_of_not_lt h)]

theorem exec87E_of_none (h : InStore s o.y.toNat) (hf : s.entryF = none) :
    exec (.op87E o) s = .refused .noEntryRecorded := by
  show exec87E o s = _
  rw [exec87E, readWord_of_lt h, hf]

theorem exec87E_of_some {f : Function7} (h : InStore s o.y.toNat) (hf : s.entryF = some f) :
    exec (.op87E o) s = .next ((s.setW (updateW s f o.x (s.mem.read o.y.toNat))).leave
      (.leftBy87 (Config.normal87 o s))) := by
  show exec87E o s = _
  rw [exec87E, readWord_of_lt h, hf]

/-- A flip-flop that an action bit sets. -/
theorem or_eq_ite_true (a b : Bool) : (a || b) = if b then true else a := by
  cases b
  · exact Bool.or_false a
  · exact Bool.or_true a

/-- The indicators of R81 are those the model computes. -/
theorem setIndicators_eq_indicated (x : Field15) (d : Indicators) :
    setIndicators x d = indicated x d := by
  simp only [setIndicators, indicated, or_eq_ite_true]
  cases x.getLsbD 4
  · simp only [Bool.not_false, Bool.and_true, Bool.false_eq_true, if_false]
  · simp only [Bool.not_true, Bool.and_false, if_true]

theorem exec23E_of_setAndReset (h1 : o.x.getLsbD 1 = true) (h4 : o.x.getLsbD 4 = true) :
    exec (.op23E o) s = .refused .setAndReset :=
  if_pos (by rw [h1, h4]; rfl)

section Acts

variable (h : ¬ (o.x.getLsbD 1 = true ∧ o.x.getLsbD 4 = true))
include h

theorem exec23E_goesOn (h5 : o.x.getLsbD 5 = false) :
    exec (.op23E o) s = .next { s with pc := s.pc + 1, ind := indicated o.x s.ind } := by
  show exec23E o s = _
  rw [exec23E, if_neg (by simpa using h), if_neg (by rw [h5]; exact Bool.false_ne_true),
    ← setIndicators_eq_indicated]
  rfl

/-- With X[5] = 1 what follows depends on y (R82). -/
theorem exec23E_reads (h5 : o.x.getLsbD 5 = true) : exec (.op23E o) s =
    readWord (s.actIndicators o.x) o.y.toNat fun yv =>
      .next (((s.actIndicators o.x).setOvr (yv.getLsbD 47)).leave .abandonedBy23E) := by
  show exec23E o s = _
  rw [exec23E, if_neg (by simpa using h), if_pos h5]

theorem exec23E_leaves (h5 : o.x.getLsbD 5 = true) (hy : InStore s o.y.toNat) :
    exec (.op23E o) s = .next { s with
      ind := indicated o.x s.ind, xcFF := false, ovr := (s.mem.read o.y.toNat).getLsbD 47,
      entryF := none, leaving := some .abandonedBy23E } := by
  rw [exec23E_reads h h5, readWord_of_lt (s := s.actIndicators o.x) hy,
    ← setIndicators_eq_indicated]
  rfl

theorem exec23E_faults (h5 : o.x.getLsbD 5 = true) (hy : ¬ InStore s o.y.toNat) :
    exec (.op23E o) s = .fault (.storeBound o.y.toNat) := by
  rw [exec23E_reads h h5]
  exact readWord_of_ge (s := s.actIndicators o.x) (Nat.le_of_not_lt hy) _

end Acts

/-! ## The statements -/

/-- Settles O22: the special effects are on the mode and W alone, and W is as `updateW` says. -/
theorem jumpLeavesExtracode : Obligations.JumpLeavesExtracode := by
  unfold Obligations.JumpLeavesExtracode
  intro o s f hb hy hf
  refine ⟨_, exec87E_of_some hy hf, rfl, fun h => updateW_of_pair h _ _,
    fun h140 h141 => toNat_updateW_of_not_pair hb (not_or.mpr ⟨h140, h141⟩) _ _, fun hm => ?_⟩
  simp only [modPart, hm, lowHalf]

/-- Settles O23: y is read before the recorded entry is consulted. -/
theorem jumpNeedsRecordedEntry : Obligations.JumpNeedsRecordedEntry := by
  unfold Obligations.JumpNeedsRecordedEntry
  exact fun o s => ⟨exec87E_of_not_inStore, exec87E_of_none⟩

/-- Settles O25: the indicators change before X[5] is looked at. -/
theorem indicatorsAct : Obligations.IndicatorsAct := by
  unfold Obligations.IndicatorsAct
  exact fun o s => ⟨exec23E_of_setAndReset, fun h => ⟨exec23E_goesOn h,
    fun h5 hy => ⟨_, exec23E_leaves h h5 hy, rfl⟩⟩⟩

/-- Settles O26: the three outcomes of a 23E that acts. -/
theorem abandonLeavesExtracode : Obligations.AbandonLeavesExtracode := by
  unfold Obligations.AbandonLeavesExtracode
  exact fun o s h => ⟨exec23E_leaves h, exec23E_faults h,
    fun h5 => ⟨_, exec23E_goesOn h h5, rfl⟩⟩

/-- Settles O27: W becomes the address Y names, and pc goes on. -/
theorem setAbandonmentAddress : Obligations.SetAbandonmentAddress := by
  unfold Obligations.SetAbandonmentAddress
  exact fun o s hb => ⟨_, rfl, toNat_toAddr _ _ hb, rfl⟩

end Sys2Proof.Claims
end

section
/-!
PROOF. The lockout and reservation orders 20E, 21E, 125E and 127E
(spec/41_lockout_20E_21E_125E_127E.md).
-/

namespace Sys2Proof.Claims

open Sys2Proof.Machine

variable {s t : State} {o : Operands} {r : TesterRegister}

/-! ## Selecting a register (R90, R92) -/

theorem selectRegister_resUpper (c : Installation) {y : Half} (ht : testerNumber y = 0)
    (hr : testerSelector y = 1) : selectRegister c y = .ok .resUpper := by
  simp [selectRegister, ht, hr]

theorem selectRegister_noCurrent_reservation (c : Installation) {y : Half}
    (ht : testerNumber y = 0) (hr : testerSelector y = 2) :
    selectRegister c y = .error (.noCurrentAddress 0) := by
  simp [selectRegister, ht, hr]

theorem selectRegister_resStrongWeak (c : Installation) {y : Half} (ht : testerNumber y = 0)
    (hr : testerSelector y = 3) : selectRegister c y = .error .resStrongWeakSelector := by
  simp [selectRegister, ht, hr]

theorem selectRegister_testerNumber (c : Installation) {y : Half} (ht : 8 ≤ testerNumber y) :
    selectRegister c y = .error (.testerNumber (testerNumber y)) := by
  simp only [selectRegister]
  rw [if_neg (by omega), dif_neg (by omega)]

section OfTester

variable (c : Installation) {y : Half} {k : Fin 7} (ht : testerNumber y = k.val + 1)
include ht

theorem selectRegister_lkLower (hr : testerSelector y = 0) :
    selectRegister c y = .ok (.lkLower k) := by
  simp only [selectRegister_of_tester c y k ht, hr]

theorem selectRegister_lkUpper (hr : testerSelector y = 1) :
    selectRegister c y = .ok (.lkUpper k) := by
  simp only [selectRegister_of_tester c y k ht, hr]

theorem selectRegister_lkCurrent (hr : testerSelector y = 2)
    (hc : c.hasCurrent.getLsbD k.val = true) : selectRegister c y = .ok (.lkCurrent k) := by
  rw [selectRegister_of_tester c y k ht, hr]
  exact if_pos hc

theorem selectRegister_noCurrent (hr : testerSelector y = 2)
    (hc : c.hasCurrent.getLsbD k.val = false) :
    selectRegister c y = .error (.noCurrentAddress (k.val + 1)) := by
  rw [selectRegister_of_tester c y k ht, hr]
  exact if_neg (by rw [hasCurrentAddress, hc]; exact Bool.false_ne_true)

theorem selectRegister_lkSW (hr : testerSelector y = 3) :
    selectRegister c y = .ok (.lkSW k) := by
  simp only [selectRegister_of_tester c y k ht, hr]

end OfTester

/-! ## What 20E and 21E answer -/

theorem withRegister_of_error {y : Half} {e : Refusal} (h : selectRegister s.inst y = .error e)
    (k : TesterRegister → Result) : withRegister s y k = .refused e := by
  rw [withRegister, h]

theorem exec20E_of_error {e : Refusal} (hx : InStore s o.x.toNat)
    (h : selectRegister s.inst o.y = .error e) : exec (.op20E o) s = .refused e := by
  show exec20E o s = _
  rw [exec20E, readWord_of_lt hx, withRegister_of_error h]

theorem exec21E_of_error {e : Refusal} (h : selectRegister s.inst o.y = .error e) :
    exec (.op21E o) s = .refused e := by
  show exec21E o s = _
  rw [exec21E, withRegister_of_error h]

/-- The state after 21E of a register. -/
def afterReadBack (o : Operands) (r : TesterRegister) (s : State) : State :=
  (setOutOfAction ((s.skipDraws 1).putWord o.x.toNat (readBackWord s r s.drawn)) r o.y).advance

theorem exec21E_eq_next : exec (.op21E o) s = .next t ↔
    ∃ r, selectRegister s.inst o.y = .ok r ∧ InStore s o.x.toNat ∧ afterReadBack o r s = t := by
  show exec21E o s = _ ↔ _
  simp only [exec21E, withRegister_eq_next, writeWord_eq_next, nextOrder_eq_next,
    State.skipDraws_inst]
  rfl

theorem mem_afterReadBack (o : Operands) (r : TesterRegister) (s : State) :
    (afterReadBack o r s).mem = s.mem.write o.x.toNat (readBackWord s r s.drawn) := by
  rw [afterReadBack, setOutOfAction_frame]
  rfl

/-- Settles O29: each selector selects its register, and the loading of it is exact. -/
theorem loadTesterRegister : Obligations.LoadTesterRegister := by
  unfold Obligations.LoadTesterRegister
  intro o s xv a hb hx hxv ha
  subst hxv ha
  refine ⟨fun ht hr => ?_, fun k ht => ⟨fun hr => ?_, fun hr => ?_, fun hr hc => ?_, fun hr => ?_⟩⟩
  · exact exec20E_of_select hx (selectRegister_resUpper _ (congrArg BitVec.toNat ht)
      (congrArg BitVec.toNat hr))
  · exact exec20E_of_select hx (selectRegister_lkLower _ ht (congrArg BitVec.toNat hr))
  · exact exec20E_of_select hx (selectRegister_lkUpper _ ht (congrArg BitVec.toNat hr))
  · exact exec20E_of_select hx (selectRegister_lkCurrent _ ht (congrArg BitVec.toNat hr) hc)
  · exact exec20E_of_select hx (selectRegister_lkSW _ ht (congrArg BitVec.toNat hr))

/-- Settles O30: each of the four selections has its refusal, which 21E meets at once and 20E after
it has read x. -/
theorem undescribedSelectionsRefused : Obligations.UndescribedSelectionsRefused := by
  unfold Obligations.UndescribedSelectionsRefused
  intro o s t r ht hcases
  suffices h : selectRegister s.inst o.y = .error r from
    ⟨exec21E_of_error h, fun hx => exec20E_of_error hx h⟩
  have htester : testerNumber o.y = t := ht.symm
  obtain ⟨h8, rfl⟩ | ⟨h0, hr, rfl⟩ | ⟨h0, hr, rfl⟩ | ⟨h1, h7, hr, hc, rfl⟩ := hcases
  · rw [← htester] at h8 ⊢
    exact selectRegister_testerNumber _ h8
  · exact selectRegister_noCurrent_reservation _ (htester.trans h0) (congrArg BitVec.toNat hr)
  · exact selectRegister_resStrongWeak _ (htester.trans h0) (congrArg BitVec.toNat hr)
  · obtain ⟨j, rfl⟩ : ∃ j : Nat, t = j + 1 := ⟨t - 1, by omega⟩
    exact selectRegister_noCurrent (k := ⟨j, by omega⟩) _ htester (congrArg BitVec.toNat hr) hc

/-! ## What 21E reads back -/

/-- A bit put into a word above its n l.s. bits leaves these. -/
theorem toNat_putBit_mod {n k : Nat} (w : Word) (b : Bool) (hn : n ≤ k) (hk : k < 48) :
    (putBit w k b).toNat % 2 ^ n = w.toNat % 2 ^ n := by
  apply Nat.eq_of_testBit_eq
  intro j
  rw [Nat.testBit_mod_two_pow, Nat.testBit_mod_two_pow]
  by_cases h : j < n
  · have hbit := getLsbD_putBit_of_ne (j := j) (k := k) w b (by omega) (by omega)
    rw [BitVec.testBit_toNat, BitVec.testBit_toNat, hbit]
  · simp [h]

/-- The address read back is the register's (R93). -/
theorem toNat_readBackWord_mod (hb : s.inst.addrBits ≤ 24) (hr : ∀ k, r ≠ .lkSW k) (free : Word) :
    (readBackWord s r free).toNat % 2 ^ s.inst.addrBits =
      (registerAddr s r).toNat % 2 ^ s.inst.addrBits := by
  cases r with
  | lkSW k => exact absurd rfl (hr k)
  | resUpper =>
    rw [readBackWord, toNat_putBit_mod _ _ (by omega) (by decide), toNat_putAddr _ _ _ hb]
  | resLower => exact toNat_putAddr _ _ _ hb
  | lkLower k => exact toNat_putAddr _ _ _ hb
  | lkUpper k => exact toNat_putAddr _ _ _ hb
  | lkCurrent k => exact toNat_putAddr _ _ _ hb

/-- Settles O31: the word is the register's, and the tester is put out of action as Y says. -/
theorem readBackRegister : Obligations.ReadBackRegister := by
  unfold Obligations.ReadBackRegister
  intro o s r hm hb hx hr
  have hread : readBackWord s r s.drawn = (afterReadBack o r s).mem.read o.x.toNat := by
    rw [mem_afterReadBack, Memory.read_write_self hm]
  refine ⟨_, _, exec21E_eq_next.mpr ⟨r, hr, hx, rfl⟩, hread,
    fun h => toNat_readBackWord_mod hb h _, ?_, ?_, fun k => ?_, ?_, fun a ha => ?_⟩
  · rintro k rfl
    exact getLsbD_putBit_self _ _ (by decide)
  · rintro rfl
    exact getLsbD_putBit_self _ _ (by decide)
  · exact lockout_setOutOfAction _ r o.y k
  · rw [afterReadBack, setOutOfAction_frame]
    rfl
  · rw [mem_afterReadBack, read_write_of_notMem hm ha]

/-- A register that has been loaded holds the address loaded, the lower reservation register but for
its six l.s. bits (R91). -/
theorem toNat_registerAddr_loadRegister (hb : s.inst.addrBits ≤ 24) (hr : ∀ k, r ≠ .lkSW k)
    (xv : Word) : (registerAddr (loadRegister s r xv) r).toNat =
      if r = .resLower then 64 * (xv.toNat % 2 ^ s.inst.addrBits / 64)
      else xv.toNat % 2 ^ s.inst.addrBits := by
  have ha : (addrOf s.inst xv).toNat = xv.toNat % 2 ^ s.inst.addrBits := toNat_toAddr _ _ hb
  cases r with
  | lkSW k => exact absurd rfl (hr k)
  | resLower => exact toNat_loadRegister_resLower hb xv
  | resUpper => exact ha
  | lkLower k => rw [registerAddr, loadRegister, State.lockout_setLockout_self]; exact ha
  | lkUpper k => rw [registerAddr, loadRegister, State.lockout_setLockout_self]; exact ha
  | lkCurrent k => rw [registerAddr, loadRegister, State.lockout_setLockout_self]; exact ha

/-- Settles O32: 21E reads back the register that the 20E loaded, which holds an address. -/
theorem loadThenReadBack : Obligations.LoadThenReadBack := by
  unfold Obligations.LoadThenReadBack
  intro o p s u t r hm hb h6 hy hr hsw h20 h21
  obtain ⟨r', hr', rfl⟩ := exec20E_next h20
  obtain rfl : r = r' := Except.ok.inj (hr.symm.trans hr')
  have hmem : ((loadRegister s r (s.mem.read o.x.toNat)).advance).mem = s.mem := by
    rw [loadRegister_frame]; rfl
  have hinst : ((loadRegister s r (s.mem.read o.x.toNat)).advance).inst = s.inst := by
    rw [loadRegister_frame]; rfl
  obtain ⟨r'', hr'', -, rfl⟩ := exec21E_eq_next.mp h21
  rw [hy, hinst] at hr''
  obtain rfl : r = r'' := Except.ok.inj (hr.symm.trans hr'')
  have haddr := toNat_registerAddr_loadRegister (r := r) hb hsw (s.mem.read o.x.toNat)
  have hback := toNat_readBackWord_mod
    (s := (loadRegister s r (s.mem.read o.x.toNat)).advance) (r := r) (by rwa [hinst]) hsw
  have hreg : registerAddr (loadRegister s r (s.mem.read o.x.toNat)).advance r =
      registerAddr (loadRegister s r (s.mem.read o.x.toNat)) r := by
    cases r <;> rfl
  rw [hinst, hreg, haddr] at hback
  rw [mem_afterReadBack, hmem, Memory.read_write_self hm, hback]
  have hlt : (s.mem.read o.x.toNat).toNat % 2 ^ s.inst.addrBits < 2 ^ s.inst.addrBits :=
    Nat.mod_lt _ (Nat.two_pow_pos _)
  refine Nat.mod_eq_of_lt ?_
  split <;> omega

/-! ## What the region tests compute (R95, R96) -/

theorem rangesMeet_iff {lo hi l u : Nat} :
    rangesMeet lo hi l u = true ↔ ∃ a, lo ≤ a ∧ a ≤ hi ∧ l ≤ a ∧ a ≤ u := by
  rw [rangesMeet, decide_eq_true_eq]
  exact ⟨fun h => ⟨max lo l, by omega, by omega, by omega, by omega⟩,
    fun ⟨a, h1, h2, h3, h4⟩ => by omega⟩

theorem failsIn_iff {kind : TestKind} {lo hi : Nat} {l : Lockout} :
    failsIn s kind lo hi l = true ↔ ∃ a, lo ≤ a ∧ a ≤ hi ∧ lockedOut l a = true ∧
      appliesTo s.inst kind l.sw = true := by
  simp only [failsIn, lockedOut, Bool.and_eq_true, decide_eq_true_eq, rangesMeet_iff]
  constructor
  · rintro ⟨⟨hactive, a, hlo, hhi, hl, hu⟩, happlies⟩
    exact ⟨a, hlo, hhi, ⟨⟨hactive, hl⟩, hu⟩, happlies⟩
  · rintro ⟨a, hlo, hhi, ⟨⟨hactive, hl⟩, hu⟩, happlies⟩
    exact ⟨⟨hactive, a, hlo, hhi, hl, hu⟩, happlies⟩

/-- Settles O33: a tester fails in the region exactly if it locks out some address of it. -/
theorem lockoutFailureMeans : Obligations.LockoutFailureMeans := by
  unfold Obligations.LockoutFailureMeans
  intro s kind lo hi
  rw [lockoutFailure, any_lockouts]
  exact exists_congr fun k => failsIn_iff

/-- A region is permitted as a whole exactly if its ends are. -/
theorem ends_permitted_iff {lo hi : Nat} (h : lo ≤ hi) :
    (s.res.lower.toNat ≤ lo ∧ hi ≤ s.res.upper.toNat) ↔
      ∀ a, lo ≤ a → a ≤ hi → permitted s a = true := by
  simp only [permitted, Bool.and_eq_true, decide_eq_true_eq]
  exact ⟨fun ⟨hl, hu⟩ a hlo hhi => ⟨by omega, by omega⟩,
    fun ha => ⟨(ha lo (Nat.le_refl _) h).1, (ha hi h (Nat.le_refl _)).2⟩⟩

/-- Some address of a region is denied exactly if a range of denial meets it. -/
theorem resDenies_any_iff {c : Installation} {kind : TestKind} {sw : Bool} {lo hi : Nat} :
    (c.resDenies.any fun e => decide (e.kind = kind) && decide (e.sw = sw) &&
      rangesMeet lo hi e.lower e.upper) = true ↔
    ∃ a, lo ≤ a ∧ a ≤ hi ∧ resDenies c kind sw a = true := by
  simp only [resDenies, List.any_eq_true, Bool.and_eq_true, decide_eq_true_eq, rangesMeet_iff]
  constructor
  · rintro ⟨e, he, ⟨hk, hs⟩, a, hlo, hhi, hl, hu⟩
    exact ⟨a, hlo, hhi, e, he, ⟨⟨hk, hs⟩, hl⟩, hu⟩
  · rintro ⟨a, hlo, hhi, e, he, ⟨⟨hk, hs⟩, hl⟩, hu⟩
    exact ⟨e, he, ⟨hk, hs⟩, a, hlo, hhi, hl, hu⟩

/-- Settles O34: the failure is either an end that is not permitted, or a range of denial. -/
theorem reservationFailureMeans : Obligations.ReservationFailureMeans := by
  unfold Obligations.ReservationFailureMeans
  intro s kind lo hi h
  rw [reservationFailure, Bool.or_eq_true, resDenies_any_iff, Bool.not_eq_true', ← Bool.not_eq_true,
    Bool.and_eq_true, decide_eq_true_eq, decide_eq_true_eq, ends_permitted_iff h]
  constructor
  · rintro (hp | ⟨a, hlo, hhi, hd⟩)
    · by_contra hnone
      exact hp fun a hlo hhi => by
        by_contra ha
        exact hnone ⟨a, hlo, hhi, .inl (Bool.eq_false_of_not_eq_true ha)⟩
    · exact ⟨a, hlo, hhi, .inr hd⟩
  · rintro ⟨a, hlo, hhi, hp | hd⟩
    · exact .inl fun hall => by simp [hall a hlo hhi] at hp
    · exact .inr ⟨a, hlo, hhi, hd⟩

/-! ## The result of a region test (R97) -/

/-- The address reported after a lockout failure is a locked-out address of the region. -/
theorem reportedAddress_spec {kind : TestKind} {lo hi : Nat} (hle : lo ≤ hi)
    (h : lockoutFailure s kind lo hi = true) (free : Word) :
    lo ≤ reportedAddress s kind lo hi free ∧ reportedAddress s kind lo hi free ≤ hi ∧
      reportable s kind (reportedAddress s kind lo hi free) = true := by
  have hmod : free.toNat % (hi + 1 - lo) < hi + 1 - lo := Nat.mod_lt _ (by omega)
  simp only [reportedAddress]
  split
  · rename_i hrep
    exact ⟨by omega, by omega, hrep⟩
  · cases hfind : s.lockouts.toList.find? (failsIn s kind lo hi) with
    | none =>
      obtain ⟨l, hl, hfail⟩ := List.any_eq_true.mp h
      exact absurd hfail (List.find?_eq_none.mp hfind l hl)
    | some l =>
      obtain ⟨a, hlo, hhi, hlocked, happlies⟩ := failsIn_iff.mp (List.find?_some hfind)
      simp only [lockedOut, Bool.and_eq_true, decide_eq_true_eq] at hlocked
      obtain ⟨⟨hactive, hl⟩, hu⟩ := hlocked
      refine ⟨by simp only; omega, by simp only; omega, List.any_eq_true.mpr
        ⟨l, List.mem_of_find?_eq_some hfind, ?_⟩⟩
      simp only [lockedOut, hactive, happlies, Bool.true_and, Bool.and_true, Bool.and_eq_true,
        decide_eq_true_eq]
      omega

/-- The result word of a failure with an address. -/
theorem toNat_failureWord {a : Nat} (ha : a < 2 ^ 24) :
    (putBit (putField 0#48 0 (BitVec.ofNat 24 a)) 47 true).toNat = 2 ^ 47 + a := by
  have e : putBit (putField 0#48 0 (BitVec.ofNat 24 a)) 47 true =
      1#1 ++ (0#23 ++ BitVec.ofNat 24 a) := by
    apply BitVec.eq_of_getLsbD_eq
    intro j hj
    rw [getLsbD_putBit _ _ _ _ hj, getLsbD_putField _ _ _ _ hj, BitVec.getLsbD_append,
      BitVec.getLsbD_append]
    by_cases h47 : j = 47
    · subst h47; rfl
    · rw [if_neg h47, if_pos (show j < 23 + 24 by omega)]
      by_cases h24 : j < 24
      · rw [if_pos ⟨Nat.zero_le j, by omega⟩, if_pos h24, Nat.sub_zero]
      · rw [if_neg (by omega), if_neg h24, BitVec.getLsbD_zero, BitVec.getLsbD_zero]
  have hor : 1 <<< 47 + a = 1 <<< 47 ||| a := Nat.shiftLeft_add_eq_or_of_lt (by omega) 1
  rw [e, BitVec.toNat_append, BitVec.toNat_append, BitVec.toNat_ofNat a 24, Nat.mod_eq_of_lt ha]
  simpa [Nat.shiftLeft_eq] using hor.symm

theorem regionWord_of_lockout {kind : TestKind} {lo hi : Nat} (hle : lo ≤ hi) (hhi : hi < 2 ^ 24)
    (h : lockoutFailure s kind lo hi = true) :
    (regionWord s kind lo hi).toNat = 2 ^ 47 + reportedAddress s kind lo hi s.drawn := by
  have hlt := (reportedAddress_spec hle h s.drawn).2.1
  rw [regionWord, if_pos h, toNat_failureWord (by omega)]

theorem regionWord_of_reservation {kind : TestKind} {lo hi : Nat}
    (hl : lockoutFailure s kind lo hi = false) (hr : reservationFailure s kind lo hi = true) :
    regionWord s kind lo hi = putBit 0#48 47 true := by
  rw [regionWord, if_neg (Bool.not_eq_true _ ▸ hl), if_pos hr]

theorem regionWord_of_neither {kind : TestKind} {lo hi : Nat}
    (hl : lockoutFailure s kind lo hi = false) (hr : reservationFailure s kind lo hi = false) :
    regionWord s kind lo hi = 0#48 := by
  rw [regionWord, if_neg (Bool.not_eq_true _ ▸ hl), if_neg (Bool.not_eq_true _ ▸ hr)]

theorem toNat_lowHalf (w : Word) : (lowHalf w).toNat = w.toNat % 2 ^ 24 := by
  simp [lowHalf]

section Region

variable {p : Nat} {kind : TestKind} {z : Field15} (hz : o.z = some z)
  (hx : InStore s o.x.toNat) (hy : InStore s o.y.toNat)
include hz hx hy

theorem testRegion_of_topHalves
    (h : highHalf (s.mem.read o.x.toNat) ≠ highHalf (s.mem.read o.y.toNat)) :
    testRegion p kind o s = .refused .regionTopHalves := by
  rw [testRegion, needZ, hz]
  simp only
  rw [readWord_of_lt hx, readWord_of_lt hy, if_pos h]

theorem testRegion_of_empty
    (h : highHalf (s.mem.read o.x.toNat) = highHalf (s.mem.read o.y.toNat))
    (hlt : (s.mem.read o.y.toNat).toNat % 2 ^ 24 < (s.mem.read o.x.toNat).toNat % 2 ^ 24) :
    testRegion p kind o s = .refused .emptyRegion := by
  rw [testRegion, needZ, hz]
  simp only
  rw [readWord_of_lt hx, readWord_of_lt hy, if_neg (not_not.mpr h), toNat_lowHalf, toNat_lowHalf,
    if_pos hlt]

/-- On a region the test writes its result into z (R97). -/
theorem testRegion_of_region {lo hi : Nat}
    (h : highHalf (s.mem.read o.x.toNat) = highHalf (s.mem.read o.y.toNat))
    (hlo : lo = (s.mem.read o.x.toNat).toNat % 2 ^ 24)
    (hhi : hi = (s.mem.read o.y.toNat).toNat % 2 ^ 24) (hle : lo ≤ hi) :
    ∃ n, testRegion p kind o s =
      writeWord (s.skipDraws n) z.toNat (regionWord s kind lo hi) nextOrder := by
  rw [testRegion, needZ, hz]
  simp only
  rw [readWord_of_lt hx, readWord_of_lt hy, if_neg (not_not.mpr h), toNat_lowHalf, toNat_lowHalf,
    ← hlo, ← hhi, if_neg (Nat.not_lt.mpr hle)]
  exact ⟨_, rfl⟩

end Region

/-- 125E and 127E are the region test of their kind. -/
theorem exec_regionTest {i : Instr} {kind : TestKind}
    (h : i = .op125E o ∧ kind = .strong ∨ i = .op127E o ∧ kind = .weak) :
    ∃ p, exec i s = testRegion p kind o s := by
  obtain ⟨rfl, rfl⟩ | ⟨rfl, rfl⟩ := h
  · exact ⟨125, rfl⟩
  · exact ⟨127, rfl⟩

/-- Settles O35: the result word by its three cases, written into z. -/
theorem regionTests : Obligations.RegionTests := by
  unfold Obligations.RegionTests
  intro o s z lo hi i kind hm hi' hz hx hy hzs htop hlo hhi hle
  obtain ⟨p, he⟩ := exec_regionTest (s := s) hi'
  obtain ⟨n, hn⟩ := testRegion_of_region (p := p) (kind := kind) hz hx hy htop hlo hhi hle
  have hread : ((s.skipDraws n).putWord z.toNat (regionWord s kind lo hi)).advance.mem.read
      z.toNat = regionWord s kind lo hi := Memory.read_write_self hm _ _
  have hlt : hi < 2 ^ 24 := hhi ▸ Nat.mod_lt _ (Nat.two_pow_pos _)
  have hnext := he.trans (hn.trans (writeWord_of_lt (s := s.skipDraws n) hzs _ _))
  refine ⟨_, hnext, rfl, fun a ha => ?_, fun hl hr => ?_,
    fun hl hr => ?_, fun hl => ?_⟩
  · exact read_write_of_notMem hm ha _
  · rw [hread, regionWord_of_neither hl hr]
  · rw [hread, regionWord_of_reservation hl hr]
    decide
  · rw [hread, regionWord_of_lockout hle hlt hl]
    exact ⟨_, rfl, reportedAddress_spec hle hl _⟩

/-- Settles O36: the two refusals of R97, in its order. -/
theorem regionTestsRefused : Obligations.RegionTestsRefused := by
  unfold Obligations.RegionTestsRefused
  intro o s z xv yv i hi hz hx hy hxv hyv
  subst hxv hyv
  obtain ⟨p, kind, he⟩ : ∃ p kind, exec i s = testRegion p kind o s := by
    obtain rfl | rfl := hi
    · exact ⟨125, .strong, rfl⟩
    · exact ⟨127, .weak, rfl⟩
  rw [he]
  exact ⟨testRegion_of_topHalves hz hx hy, testRegion_of_empty hz hx hy⟩

end Sys2Proof.Claims
end

section
/-!
PROOF. The peripheral order 22E (spec/42_peripheral_22E.md), the conversion orders 24E, 25E and 26E
(spec/43_conversion_24E_25E_26E.md), and the card orders 102E and 103E (spec/45_card_102E_103E.md).
-/

namespace Sys2Proof.Claims

open Sys2Proof.Machine

variable {s t : State} {o : Operands}

/-! ## 22E -/

/-- The address of DEST as the statements write it (R5). -/
theorem eq_toNat_destOf {dest : Nat}
    (h : dest = match o.z with | some z => z.toNat | none => o.x.toNat) :
    dest = (destOf o).toNat := by
  rw [h, destOf]
  cases o.z <;> rfl

/-- The General Request as a number: channel 8 and the channels of X (R100). -/
theorem toNat_requestChannels (x : Field15) :
    (requestChannels x).toNat = 256 + x.toNat % 256 := by
  have hor : 1 <<< 8 + x.toNat % 2 ^ 8 = 1 <<< 8 ||| x.toNat % 2 ^ 8 :=
    Nat.shiftLeft_add_eq_or_of_lt (Nat.mod_lt _ (Nat.two_pow_pos _)) 1
  rw [requestChannels, BitVec.toNat_append, BitVec.extractLsb'_toNat, Nat.shiftRight_zero]
  exact hor.symm

theorem busDollops_of_one {d : Dollop} {rest : List BusReply} (h : s.replies = .one d :: rest) :
    busDollops s = (d, d) := by
  rw [busDollops, h]

theorem busDollops_of_two {d d' : Dollop} {rest : List BusReply}
    (h : s.replies = .two d d' :: rest) : busDollops s = (d, d') := by
  rw [busDollops, h]

theorem replyWord_dollops (d1 d2 : Dollop) (free : Word) :
    (replyWord d1 d2 free).extractLsb' 0 12 = d1 ∧
    (replyWord d1 d2 free).extractLsb' 12 12 = d2 := by
  unfold replyWord
  constructor
  · rw [BitVec.extractLsb'_append_eq_of_add_le (by decide)]
    exact BitVec.extractLsb'_append_eq_right
  · rw [BitVec.extractLsb'_append_eq_of_add_le (by decide)]
    exact BitVec.extractLsb'_append_eq_left

/-- The state after the request and the Bus In of a 22E, before DEST is written. -/
def afterBusIn (o : Operands) (s : State) : State :=
  (((s.emit (.generalRequest (requestChannels o.x))).emit
    (.busIn (busDollops s).1 (busDollops s).2)).takeReply).skipDraws 2

/-- The state after a 22E that puts v into DEST. -/
def afterExchange (o : Operands) (v : Word) (s : State) : State :=
  (sendControl o ((afterBusIn o s).putWord (destOf o).toNat v)).advance

theorem exec22E_of_inStore (h : InStore s (destOf o).toNat) :
    ∃ free, exec (.op22E o) s =
      .next (afterExchange o (replyWord (busDollops s).1 (busDollops s).2 free) s) :=
  ⟨Config.freeWord (s.draws + 1), by
    show exec22E o s = _
    unfold exec22E
    exact writeWord_of_lt (s := afterBusIn o s) h _ _⟩

theorem bus_afterExchange (o : Operands) (v : Word) (s : State) : (afterExchange o v s).bus =
    s.bus ++ [.generalRequest (requestChannels o.x),
        .busIn (busDollops s).1 (busDollops s).2] ++
      if o.a3 then [.controlDollop (o.y.extractLsb' 0 12)] else [] := by
  rw [afterExchange, State.advance_bus, bus_sendControl, State.putWord_bus, afterBusIn]
  simp only [State.skipDraws_bus, State.takeReply_bus, State.emit_bus, List.append_assoc]
  rfl

theorem afterExchange_frame (o : Operands) (v : Word) (s : State) : afterExchange o v s =
    { s with mem := s.mem.write (destOf o).toNat v, pc := s.pc + 1, replies := s.replies.tail,
             draws := s.draws + 2, bus := (afterExchange o v s).bus } := by
  rw [afterExchange, sendControl_frame, ← List.drop_one]
  simp only [afterBusIn, State.advance, State.putWord, State.skipDraws, State.takeReply,
    State.emit]

/-- Settles O37: the request and the Bus In are emitted, the reply is written, and `sendControl`
adds the control dollop if there is one. -/
theorem peripheralExchange : Obligations.PeripheralExchange := by
  unfold Obligations.PeripheralExchange
  intro o s dest hm hd hs
  obtain rfl := eq_toNat_destOf hd
  obtain ⟨free, hnext⟩ := exec22E_of_inStore hs
  have hmem : (afterExchange o (replyWord (busDollops s).1 (busDollops s).2 free) s).mem =
      s.mem.write (destOf o).toNat (replyWord (busDollops s).1 (busDollops s).2 free) := by
    rw [afterExchange_frame]
  obtain ⟨hd1, hd2⟩ := replyWord_dollops (busDollops s).1 (busDollops s).2 free
  refine ⟨_, requestChannels o.x, (busDollops s).1, (busDollops s).2, hnext,
    toNat_requestChannels o.x, ?_, ?_, ?_, fun d rest h => ?_, fun d d' rest h => ?_, ?_,
    fun a ha => ?_⟩
  · rw [bus_afterExchange, Operands.a3]
    cases o.z <;> rfl
  · rw [hmem, Memory.read_write_self hm, hd1]
  · rw [hmem, Memory.read_write_self hm, hd2]
  · rw [busDollops_of_one h]
    exact ⟨rfl, rfl⟩
  · rw [busDollops_of_two h]
    exact ⟨rfl, rfl⟩
  · rw [afterExchange_frame]
  · rw [hmem, read_write_of_notMem hm ha]

/-! ## 24E, 25E and 26E -/

/-- The k-th of n consecutive words read. -/
theorem nthWord_map_range {n k : Nat} (h : k < n) (f : Nat → Word) :
    nthWord ((List.range n).map f) k = f k := by
  simp [nthWord, h]

/-- Settles O38: the table read is eight words of the store, so its xi-th character is the xi-th
character of the store from the first of them. -/
theorem characterConversion : Obligations.CharacterConversion := by
  unfold Obligations.CharacterConversion
  intro o s dest hm hd hx hy hs
  obtain rfl := eq_toNat_destOf hd
  have hnext : exec (.op24E o) s = .next (s.putWord (destOf o).toNat (translateWord
      ((List.range 8).map fun i => s.mem.read (o.y.toNat + i))
        (s.mem.read o.x.toNat))).advance := by
    show exec24E o s = _
    rw [exec24E, readWord_of_lt hx, readWords_of_le hy, writeWord_of_lt hs]
    rfl
  refine ⟨_, hnext, rfl, fun a ha => ?_, fun i hi => ?_⟩
  · exact read_write_of_notMem hm ha _
  · have hc := (charOf (s.mem.read o.x.toNat) i).isLt
    rw [State.advance_mem, State.putWord_mem, Memory.read_write_self hm, translateWord,
      charOf_wordOfChars _ hi, tableChar, nthWord_map_range (by omega), charAt,
      Nat.mul_add_div (by decide), Nat.mul_add_mod]

/-- Bit 47 - n of a word is its n-th from the m.s. end. -/
theorem getLsbD_sub_eq_getMsbD (w : Word) {n : Nat} (h : n < 48) :
    w.getLsbD (47 - n) = w.getMsbD n := by
  rw [BitVec.getMsbD_eq_getLsbD, decide_eq_true h, Bool.true_and]

/-- `sbit(n)` is a bit of the store (R107). -/
theorem sourceBit_map_range (f : Nat → Word) {n : Nat} (h : n < 144) :
    sourceBit ((List.range 3).map f) n = (f (n / 48)).getLsbD (47 - n % 48) := by
  rw [sourceBit, nthWord_map_range (by omega), getLsbD_sub_eq_getMsbD _ (Nat.mod_lt _ (by decide))]

/-- The three words of rows, at every other word from Y (R107). -/
theorem read_rowWords {m : Memory} (hm : m.wf = true) (y : Nat) (v : Nat → Word) {j : Nat}
    (hj : j < 3) :
    (((m.write y (v 0)).write (y + 2) (v 1)).write (y + 4) (v 2)).read (y + 2 * j) = v j := by
  have w1 := Memory.wf_write hm y (v 0)
  rw [Memory.read_write (Memory.wf_write w1 _ _), Memory.read_write w1, Memory.read_write hm]
  obtain rfl | rfl | rfl : j = 0 ∨ j = 1 ∨ j = 2 := by omega
  · simp
  · simp
  · simp

/-- Settles O39: bit p of the pair of rows 2j and 2j+1 is row 2j + p div 24 of column p mod 24. -/
theorem columnsToRows : Obligations.ColumnsToRows := by
  unfold Obligations.ColumnsToRows
  intro o s hm hx hy
  obtain ⟨src, hsrc⟩ : ∃ src, src = (List.range 3).map fun i => s.mem.read (o.x.toNat + i) :=
    ⟨_, rfl⟩
  have hnext : exec (.op25E o) s = .next (((s.putWord o.y.toNat (rowPair src 0)).putWord
      (o.y.toNat + 2) (rowPair src 1)).putWord (o.y.toNat + 4) (rowPair src 2)).advance := by
    show exec25E o s = _
    rw [exec25E, readWords_of_le hx, ← hsrc, writeWord_of_lt (by omega),
      writeWord_of_lt (by simp only [State.putWord_inst]; omega),
      writeWord_of_lt (by simp only [State.putWord_inst]; omega)]
    rfl
  refine ⟨_, hnext, rfl, fun a ha => ?_, fun r k hr hk => ?_⟩
  · simp only [List.mem_cons, List.not_mem_nil, or_false, not_or] at ha
    obtain ⟨h0, h2, h4⟩ := ha
    have w1 := Memory.wf_write hm o.y.toNat (rowPair src 0)
    simp only [State.advance_mem, State.putWord_mem]
    rw [Memory.read_write_of_ne (Memory.wf_write w1 _ _) h4, Memory.read_write_of_ne w1 h2,
      Memory.read_write_of_ne hm h0]
  · have hp : 24 * (r % 2) + k < 48 := by omega
    have hbit : 6 * ((24 * (r % 2) + k) % 24) + (2 * (r / 2) + (24 * (r % 2) + k) / 24) =
        6 * k + r := by
      rw [Nat.mul_add_mod, Nat.mod_eq_of_lt hk, Nat.mul_add_div (by decide), Nat.div_eq_of_lt hk]
      omega
    simp only [State.advance_mem, State.putWord_mem]
    rw [read_rowWords hm _ (rowPair src) (by omega), getLsbD_sub_eq_getMsbD _ hp, rowPair,
      getMsbD_wordOfBits _ hp, hbit, hsrc, sourceBit_map_range _ (by omega)]

/-- Settles O40: both words are computed before either is written. -/
theorem rowsJoined : Obligations.RowsJoined := by
  unfold Obligations.RowsJoined
  intro o s a b hm hx hy ha hb
  have hnext : exec (.op26E o) s = .next ((s.putWord o.y.toNat (colRow2 s.inst a b).1).putWord
      (o.y.toNat + 1) (colRow2 s.inst a b).2).advance := by
    show exec26E o s = _
    rw [exec26E, readWords_of_le hx, nthWord_map_range (by decide), nthWord_map_range (by decide),
      Nat.add_zero, ← ha, ← hb]
    simp only
    rw [writeWord_of_lt (by omega), writeWord_of_lt (by simp only [State.putWord_inst]; omega)]
    rfl
  have w1 := Memory.wf_write hm o.y.toNat (colRow2 s.inst a b).1
  have hfirst : ((s.mem.write o.y.toNat (colRow2 s.inst a b).1).write (o.y.toNat + 1)
      (colRow2 s.inst a b).2).read o.y.toNat = (colRow2 s.inst a b).1 := by
    rw [Memory.read_write_of_ne w1 (by omega), Memory.read_write_self hm]
  have hsecond := Memory.read_write_self w1 (o.y.toNat + 1) (colRow2 s.inst a b).2
  refine ⟨_, hnext, rfl, fun c hc => ?_, ?_, fun hcand => ?_⟩
  · simp only [List.mem_cons, List.not_mem_nil, or_false, not_or] at hc
    simp only [State.advance_mem, State.putWord_mem]
    rw [Memory.read_write_of_ne w1 hc.2, Memory.read_write_of_ne hm hc.1]
  · simp only [State.advance_mem, State.putWord_mem, hfirst, hsecond]
  · simp only [State.advance_mem, State.putWord_mem]
    rw [hfirst, hsecond, colRow2, hcand]
    exact ⟨rfl, rfl⟩

/-! ## 102E and 103E -/

/-- The columns of a card word determine it (R120). -/
theorem eq_of_column_eq {v w : Word} (h : ∀ k, k < 4 → column v k = column w k) : v = w := by
  have chars : ∀ k, k < 4 → charOf v k = charOf w k ∧ charOf v (k + 4) = charOf w (k + 4) :=
    fun k hk => by
      have e := h k hk
      unfold column at e
      have hhigh := congrArg (BitVec.extractLsb' 6 6) e
      have hlow := congrArg (BitVec.extractLsb' 0 6) e
      rw [BitVec.extractLsb'_append_eq_left, BitVec.extractLsb'_append_eq_left] at hhigh
      rw [BitVec.extractLsb'_append_eq_right, BitVec.extractLsb'_append_eq_right] at hlow
      exact ⟨hhigh, hlow⟩
  refine eq_of_charOf_eq fun c hc => ?_
  by_cases h4 : c < 4
  · exact (chars c h4).1
  · have := (chars (c - 4) (by omega)).2
    rwa [show c - 4 + 4 = c by omega] at this

/-- Column k of a card with column j blank. -/
theorem column_blankColumn (w : Word) {j k : Nat} (hj : j < 4) (hk : k < 4) :
    column (blankColumn w j) k = if k = j then 0#12 else column w k := by
  rw [column, blankColumn, charOf_setChar _ (by omega) (by omega),
    charOf_setChar _ (by omega) (by omega), charOf_setChar _ (by omega) (by omega),
    charOf_setChar _ (by omega) (by omega), if_neg (by omega)]
  by_cases h : k = j
  · rw [if_pos h, if_pos h, if_pos (by omega)]
    rfl
  · rw [if_neg h, if_neg h, if_neg (by omega), if_neg (by omega), column]

/-- The statement's count of the holes under the mask is the model's. -/
theorem holesUnderMask_eq_countP (xv yv : Word) (j : Nat) : holesUnderMask xv yv j =
    (List.range 12).countP fun b => (column xv j).getLsbD b && (column yv 0).getLsbD b := by
  simp only [holesUnderMask, holes, BitVec.getLsbD_and, List.countP_eq_length_filter]

theorem manyHoles_iff {xv yv : Word} {j : Nat} :
    manyHoles xv yv j = true ↔ 2 ≤ holesUnderMask xv yv j := decide_eq_true_iff

theorem onlyTenEleven_iff {c : Installation} {xv yv : Word} {j : Nat} :
    onlyTenEleven c xv yv j = true ↔ holesUnderMask xv yv j = 0 ∧ column xv j ≠ 0#12 ∧
      column xv j &&& ~~~c.tenEleven = 0#12 := by
  simp only [onlyTenEleven, Bool.and_eq_true, decide_eq_true_eq, and_assoc]

/-- The v characters are at the m.s. end, the u characters at the l.s. end (R122 (a)). -/
theorem charOf_cardConv1_v (c : Installation) (xv yv : Word) {j : Nat} (hj : j < 4) :
    charOf (cardConv1 c xv yv) j = vChar c xv yv j := by
  rw [cardConv1, charOf_wordOfChars _ (by omega), if_pos hj]

theorem charOf_cardConv1_u (c : Installation) (xv yv : Word) {j : Nat} (hj : j < 4) :
    charOf (cardConv1 c xv yv) (j + 4) = uChar xv yv j := by
  rw [cardConv1, charOf_wordOfChars _ (by omega), if_neg (by omega), Nat.add_sub_cancel]

/-- The m.s. bit of u_j. -/
theorem getLsbD_cardConv1_u (c : Installation) (xv yv : Word) {j : Nat} (hj : j < 4) :
    (cardConv1 c xv yv).getLsbD (23 - 6 * j) = manyHoles xv yv j := by
  have hbit := getLsbD_charOf (cardConv1 c xv yv) (c := j + 4) (i := 5) (by decide)
  rw [charOf_cardConv1_u c xv yv hj, show 42 - 6 * (j + 4) + 5 = 23 - 6 * j by omega] at hbit
  rw [← hbit, uChar, BitVec.getLsbD_append]
  simp

theorem cardOverflow_iff {c : Installation} {xv yv : Word} :
    cardOverflow c xv yv = true ↔
      ∃ j, j < 4 ∧ (manyHoles xv yv j = true ∨ onlyTenEleven c xv yv j = true) := by
  have hmem : ∀ j, j ∈ [0, 1, 2, 3] ↔ j < 4 := fun j => by simp; omega
  simp only [cardOverflow, List.any_eq_true, hmem, Bool.or_eq_true, or_comm]

/-- Settles O44: v_j by the three cases of R122, u_j by its m.s. bit, and OVR ored with the overflow
of any column. -/
theorem cardFirstConversion : Obligations.CardFirstConversion := by
  unfold Obligations.CardFirstConversion
  intro o s z xv yv n hm hz hx hy hs hxv hyv hn
  obtain rfl : n = holesUnderMask xv yv :=
    funext fun j => (hn j).trans (holesUnderMask_eq_countP xv yv j).symm
  have hnext : exec (.op102E o) s = .next ((s.putWord z.toNat (cardConv1 s.inst xv yv)).raiseOvr
      (cardOverflow s.inst xv yv)).advance := by
    show exec102E o s = _
    rw [exec102E, needZ, hz]
    simp only
    rw [readWord_of_lt hx, readWord_of_lt hy, writeWord_of_lt hs, hxv, hyv]
    rfl
  have hread := Memory.read_write_self hm z.toNat (cardConv1 s.inst xv yv)
  refine ⟨_, hnext, rfl, fun a ha => ?_, fun j hj h2 => ?_, fun j xb hj h0 hne h10 hb hk => ?_,
    fun j hj h2 hnot => ?_, fun j hj => ?_, ?_⟩
  · exact read_write_of_notMem hm ha _
  · simp only [State.advance_mem, State.raiseOvr_mem, State.putWord_mem, hread]
    rw [charOf_cardConv1_v _ _ _ hj, vChar, if_pos (manyHoles_iff.mpr h2)]
  · have hblank : xb = blankColumn xv j := eq_of_column_eq fun k hk4 => by
      rw [column_blankColumn _ hj hk4]
      split
      · rename_i e
        rw [e, hb]
      · exact hk k hk4 ‹_›
    simp only [State.advance_mem, State.raiseOvr_mem, State.putWord_mem, hread]
    rw [charOf_cardConv1_v _ _ _ hj, vChar, if_neg (mt manyHoles_iff.mp (by omega)),
      if_pos (onlyTenEleven_iff.mpr ⟨h0, hne, h10⟩), hblank]
  · simp only [State.advance_mem, State.raiseOvr_mem, State.putWord_mem, hread]
    rw [charOf_cardConv1_v _ _ _ hj, vChar, if_neg (mt manyHoles_iff.mp (by omega)),
      if_neg fun e => ?_]
    obtain ⟨h0, hne, h10⟩ := onlyTenEleven_iff.mp e
    exact hnot h0 hne h10
  · simp only [State.advance_mem, State.raiseOvr_mem, State.putWord_mem, hread]
    rw [getLsbD_cardConv1_u _ _ _ hj, manyHoles_iff]
  · simp only [State.advance_ovr, State.raiseOvr_ovr, State.putWord_ovr, Bool.or_eq_true,
      cardOverflow_iff, manyHoles_iff, onlyTenEleven_iff]

/-- Settles O45: z takes the halves of CardCheck2 exchanged. -/
theorem cardSecondConversion : Obligations.CardSecondConversion := by
  unfold Obligations.CardSecondConversion
  intro o s z mixed hm hz hx hy hs hmixed
  have hnext : exec (.op103E o) s = .next (s.putWord z.toNat (rot24 mixed)).advance := by
    show exec103E o s = _
    rw [exec103E, needZ, hz]
    simp only
    rw [readWord_of_lt hx, readWord_of_lt hy, readWord_of_lt hs, writeWord_of_lt hs, ← hmixed]
    rfl
  have hread := Memory.read_write_self hm z.toNat (rot24 mixed)
  refine ⟨_, hnext, rfl, fun a ha => ?_, ?_, ?_⟩
  · exact read_write_of_notMem hm ha _
  · simp only [State.advance_mem, State.putWord_mem, hread]
    exact BitVec.extractLsb'_append_eq_left
  · simp only [State.advance_mem, State.putWord_mem, hread]
    exact BitVec.extractLsb'_append_eq_right

end Sys2Proof.Claims
end

section
/-!
PROOF. Where the orders stop: the 2-address forms that need Z (spec/30_encoding.md R68), and the
operand, table, result and image words outside the store (spec/20_memory.md R44).
-/

namespace Sys2Proof.Claims

open Sys2Proof.Machine

variable {s : State} {o : Operands} {p : Nat}

/-! ## The 2-address form -/

theorem needZ_of_none (h : o.z = none) (k : Field15 → Result) :
    needZ p o k = .refused (.twoAddressForm p) := by
  rw [needZ, h]

theorem needZ_of_some {z : Field15} (h : o.z = some z) (k : Field15 → Result) :
    needZ p o k = k z := by
  rw [needZ, h]

/-- The eight orders that need Z ask for it before anything else. -/
theorem exec_needZ (o : Operands) (s : State) :
    ∀ p ∈ [(Instr.op27E o, 27), (.op102E o, 102), (.op103E o, 103), (.op105E o, 105),
      (.op106E o, 106), (.op125E o, 125), (.op127E o, 127), (.op140E o, 140)],
      ∃ k, exec p.1 s = needZ p.2 o k := by
  simp only [List.forall_mem_cons]
  exact ⟨⟨_, rfl⟩, ⟨_, rfl⟩, ⟨_, rfl⟩, ⟨_, rfl⟩, ⟨_, rfl⟩, ⟨_, rfl⟩, ⟨_, rfl⟩, ⟨_, rfl⟩,
    List.forall_mem_nil _⟩

/-- Settles O49: Z is asked for before anything else. -/
theorem twoAddressFormsRefused : Obligations.TwoAddressFormsRefused := by
  unfold Obligations.TwoAddressFormsRefused
  intro o s h p hp
  obtain ⟨k, hk⟩ := exec_needZ o s p hp
  rw [hk, needZ_of_none h]

/-! ## The accesses of 20E to 26E, in their order -/

theorem exec20E_faults (h : s.inst.storeSize ≤ o.x.toNat) :
    exec (.op20E o) s = .fault (.storeBound o.x.toNat) := by
  show exec20E o s = _
  rw [exec20E, readWord_of_ge h]

theorem exec21E_faults {r : TesterRegister} (hr : selectRegister s.inst o.y = .ok r)
    (h : s.inst.storeSize ≤ o.x.toNat) : exec (.op21E o) s = .fault (.storeBound o.x.toNat) := by
  show exec21E o s = _
  rw [exec21E, withRegister, hr]
  exact writeWord_of_ge (s := s.skipDraws 1) h _ _

theorem exec22E_faults (h : s.inst.storeSize ≤ (destOf o).toNat) :
    exec (.op22E o) s = .fault (.storeBound (destOf o).toNat) := by
  show exec22E o s = _
  unfold exec22E
  exact writeWord_of_ge (s := afterBusIn o s) h _ _

theorem exec24E_faults :
    (s.inst.storeSize ≤ o.x.toNat → exec (.op24E o) s = .fault (.storeBound o.x.toNat)) ∧
    (o.x.toNat < s.inst.storeSize → s.inst.storeSize < o.y.toNat + 8 →
      exec (.op24E o) s = .fault (.storeBound o.y.toNat)) ∧
    (o.x.toNat < s.inst.storeSize → o.y.toNat + 8 ≤ s.inst.storeSize →
      s.inst.storeSize ≤ (destOf o).toNat →
      exec (.op24E o) s = .fault (.storeBound (destOf o).toNat)) := by
  show (_ → exec24E o s = _) ∧ (_ → _ → exec24E o s = _) ∧ (_ → _ → _ → exec24E o s = _)
  refine ⟨fun hx => ?_, fun hx hy => ?_, fun hx hy hd => ?_⟩
  · rw [exec24E, readWord_of_ge hx]
  · rw [exec24E, readWord_of_lt hx, readWords_of_gt hy]
  · rw [exec24E, readWord_of_lt hx, readWords_of_le hy, writeWord_of_ge hd]

theorem exec25E_faults :
    (s.inst.storeSize < o.x.toNat + 3 → exec (.op25E o) s = .fault (.storeBound o.x.toNat)) ∧
    (o.x.toNat + 3 ≤ s.inst.storeSize → s.inst.storeSize ≤ o.y.toNat →
      exec (.op25E o) s = .fault (.storeBound o.y.toNat)) ∧
    (o.x.toNat + 3 ≤ s.inst.storeSize → o.y.toNat < s.inst.storeSize →
      s.inst.storeSize ≤ o.y.toNat + 2 →
      exec (.op25E o) s = .fault (.storeBound (o.y.toNat + 2))) ∧
    (o.x.toNat + 3 ≤ s.inst.storeSize → o.y.toNat + 2 < s.inst.storeSize →
      s.inst.storeSize ≤ o.y.toNat + 4 →
      exec (.op25E o) s = .fault (.storeBound (o.y.toNat + 4))) := by
  show (_ → exec25E o s = _) ∧ (_ → _ → exec25E o s = _) ∧ (_ → _ → _ → exec25E o s = _) ∧
    (_ → _ → _ → exec25E o s = _)
  refine ⟨fun hx => ?_, fun hx hy => ?_, fun hx hy hy2 => ?_, fun hx hy2 hy4 => ?_⟩
  · rw [exec25E, readWords_of_gt hx]
  · rw [exec25E, readWords_of_le hx, writeWord_of_ge hy]
  · rw [exec25E, readWords_of_le hx, writeWord_of_lt hy,
      writeWord_of_ge (s := s.putWord _ _) hy2]
  · rw [exec25E, readWords_of_le hx, writeWord_of_lt (by omega),
      writeWord_of_lt (s := s.putWord _ _) hy2,
      writeWord_of_ge (s := (s.putWord _ _).putWord _ _) hy4]

theorem exec26E_faults :
    (s.inst.storeSize < o.x.toNat + 2 → exec (.op26E o) s = .fault (.storeBound o.x.toNat)) ∧
    (o.x.toNat + 2 ≤ s.inst.storeSize → s.inst.storeSize ≤ o.y.toNat →
      exec (.op26E o) s = .fault (.storeBound o.y.toNat)) ∧
    (o.x.toNat + 2 ≤ s.inst.storeSize → o.y.toNat < s.inst.storeSize →
      s.inst.storeSize ≤ o.y.toNat + 1 →
      exec (.op26E o) s = .fault (.storeBound (o.y.toNat + 1))) := by
  show (_ → exec26E o s = _) ∧ (_ → _ → exec26E o s = _) ∧ (_ → _ → _ → exec26E o s = _)
  refine ⟨fun hx => ?_, fun hx hy => ?_, fun hx hy hy1 => ?_⟩
  · rw [exec26E, readWords_of_gt hx]
  · rw [exec26E, readWords_of_le hx]
    exact writeWord_of_ge hy _ _
  · rw [exec26E, readWords_of_le hx]
    simp only
    rw [writeWord_of_lt hy]
    exact writeWord_of_ge (s := s.putWord _ _) hy1 _ _

/-! ## The accesses of the 3-address orders -/

section ThreeAddress

variable {z : Field15} (hz : o.z = some z)
include hz

/-- Seven of them read x first. -/
theorem exec_readsX : ∀ i ∈ [Instr.op102E o, .op103E o, .op105E o, .op106E o, .op125E o,
    .op127E o, .op140E o], ∃ k, exec i s = readWord s o.x.toNat k := by
  simp only [List.forall_mem_cons]
  exact ⟨⟨_, needZ_of_some hz _⟩, ⟨_, needZ_of_some hz _⟩, ⟨_, needZ_of_some hz _⟩,
    ⟨_, needZ_of_some hz _⟩, ⟨_, needZ_of_some hz _⟩, ⟨_, needZ_of_some hz _⟩,
    ⟨_, needZ_of_some hz _⟩, List.forall_mem_nil _⟩

/-- Six of them read y then. -/
theorem exec_readsY (hx : o.x.toNat < s.inst.storeSize) : ∀ i ∈ [Instr.op102E o, .op103E o,
    .op105E o, .op106E o, .op125E o, .op127E o], ∃ k, exec i s = readWord s o.y.toNat k := by
  have reads : ∀ {p : Nat} {k : Field15 → Word → Word → Result},
      needZ p o (fun z => readWord s o.x.toNat fun xv => readWord s o.y.toNat (k z xv)) =
        readWord s o.y.toNat (k z (s.mem.read o.x.toNat)) := by
    intro p k
    rw [needZ_of_some hz, readWord_of_lt hx]
  simp only [List.forall_mem_cons]
  exact ⟨⟨_, reads⟩, ⟨_, reads⟩, ⟨_, reads⟩, ⟨_, reads⟩, ⟨_, reads⟩, ⟨_, reads⟩,
    List.forall_mem_nil _⟩

/-- Four of them read or write z then. -/
theorem exec_faultsZ (hx : o.x.toNat < s.inst.storeSize) (hy : o.y.toNat < s.inst.storeSize)
    (h : s.inst.storeSize ≤ z.toNat) : ∀ i ∈ [Instr.op102E o, .op103E o, .op105E o, .op106E o],
    exec i s = .fault (.storeBound z.toNat) := by
  simp only [List.forall_mem_cons]
  refine ⟨?_, ?_, ?_, ?_, List.forall_mem_nil _⟩
  · show exec102E o s = _
    rw [exec102E, needZ_of_some hz, readWord_of_lt hx, readWord_of_lt hy, writeWord_of_ge h]
  · show exec103E o s = _
    rw [exec103E, needZ_of_some hz, readWord_of_lt hx, readWord_of_lt hy, readWord_of_ge h]
  · show exec105E o s = _
    rw [exec105E, transferOrder, needZ_of_some hz, readWord_of_lt hx, readWord_of_lt hy,
      readWord_of_ge h]
  · show exec106E o s = _
    rw [exec106E, transferOrder, needZ_of_some hz, readWord_of_lt hx, readWord_of_lt hy,
      readWord_of_ge h]

/-- The region tests write z, on a region. -/
theorem exec_regionTest_faultsZ (hx : o.x.toNat < s.inst.storeSize)
    (hy : o.y.toNat < s.inst.storeSize) (h : s.inst.storeSize ≤ z.toNat)
    (htop : highHalf (s.mem.read o.x.toNat) = highHalf (s.mem.read o.y.toNat))
    (hle : (s.mem.read o.x.toNat).toNat % 2 ^ 24 ≤ (s.mem.read o.y.toNat).toNat % 2 ^ 24) :
    ∀ i ∈ [Instr.op125E o, .op127E o], exec i s = .fault (.storeBound z.toNat) := by
  have faults : ∀ p kind, testRegion p kind o s = .fault (.storeBound z.toNat) := fun p kind => by
    obtain ⟨n, hn⟩ := testRegion_of_region (p := p) (kind := kind) hz hx hy htop rfl rfl hle
    rw [hn, writeWord_of_ge (s := s.skipDraws n) h]
  simp only [List.forall_mem_cons]
  exact ⟨faults 125 .strong, faults 127 .weak, List.forall_mem_nil _⟩

/-- 140E reads z after x, and then takes the image words one after the other. -/
theorem exec140E_eq (hx : o.x.toNat < s.inst.storeSize) : exec (.op140E o) s =
    readWord s z.toNat fun zv =>
      placeBits o.y.toNat (s.mem.read o.x.toNat) zv (List.range' 0 8) s fun s1 =>
        writeWord s1 z.toNat (zv >>> 8) nextOrder := by
  show exec140E o s = _
  rw [exec140E, needZ_of_some hz, readWord_of_lt hx]
  rfl

end ThreeAddress

/-- The first image word outside the store is where the loop of 140E stops. -/
theorem placeBits_faults {y n a i : Nat} {xv zv : Word} {k : State → Result} (ha : a ≤ i)
    (hi : i < a + n)
    (hin : ∀ j, a ≤ j → j < i → imageWord s.inst y (charOf xv j) < s.inst.storeSize)
    (hout : s.inst.storeSize ≤ imageWord s.inst y (charOf xv i)) :
    placeBits y xv zv (List.range' a n) s k =
      .fault (.storeBound (imageWord s.inst y (charOf xv i))) := by
  induction n generalizing a s with
  | zero => omega
  | succ n ih =>
    rw [List.range'_succ, placeBits]
    obtain rfl | hlt := Nat.eq_or_lt_of_le ha
    · rw [readWord_of_ge hout]
    · have hfirst := hin a (Nat.le_refl a) hlt
      rw [readWord_of_lt hfirst, writeWord_of_lt hfirst]
      exact ih (s := s.putWord _ _) hlt (by omega) (fun j hj => hin j (by omega)) hout

/-- Settles O50: each access is the first to be outside where those before it, in the order of the
rule, are inside. -/
theorem operandsOutsideStoreFault : Obligations.OperandsOutsideStoreFault := by
  unfold Obligations.OperandsOutsideStoreFault
  intro o s x y dest size hx hy hd hsize
  subst hx hy hsize
  obtain rfl := eq_toNat_destOf hd
  refine ⟨exec20E_faults, fun h ⟨r, hr⟩ => exec21E_faults hr h, exec22E_faults, exec24E_faults,
    exec25E_faults, exec26E_faults, fun z hz => ⟨fun h i hi => ?_, fun hx h i hi => ?_,
      exec_faultsZ hz, exec_regionTest_faultsZ hz, fun hx h => ?_,
      fun hx hzs i image hi himage hin hout => ?_⟩⟩
  · obtain ⟨k, hk⟩ := exec_readsX hz i hi
    rw [hk, readWord_of_ge h]
  · obtain ⟨k, hk⟩ := exec_readsY hz hx i hi
    rw [hk, readWord_of_ge h]
  · rw [exec140E_eq hz hx, readWord_of_ge h]
  · obtain rfl : image = fun j => imageWord s.inst o.y.toNat (charOf (s.mem.read o.x.toNat) j) :=
      funext himage
    rw [exec140E_eq hz hx, readWord_of_lt hzs]
    exact placeBits_faults (Nat.zero_le i) (by omega) (fun j _ => hin j) hout

end Sys2Proof.Claims
end

section
/-!
PROOF. The character transfers 105E and 106E (spec/46_chartransfer_105E_106E.md): the store after k
moves, and that the transfer of n characters is n moves, the last of them with zero fill.
-/

namespace Sys2Proof.Claims

open Sys2Proof.Machine

variable {s t u : State} {o : Operands} {src dst n k : Nat} {stop : Character → Bool}

/-! ## Places as indices (R42, R43) -/

/-- The place of the q-th character of the store. -/
def placeIndexed (q : Nat) : Place := ⟨q / 8, q % 8⟩

theorem placeIndexed_eq_placeAt (q : Nat) : placeIndexed q = placeAt 0 q := by
  rw [placeIndexed, placeAt, Nat.zero_add]

theorem placeIndexed_succ (q : Nat) : (placeIndexed q).next = placeIndexed (q + 1) := by
  rw [placeIndexed_eq_placeAt, placeIndexed_eq_placeAt, placeAt_succ]

theorem placeOf_eq (c : Installation) (cw : Word) :
    placeOf c cw = placeIndexed (charIndex c cw) := by
  have hc := (cw.extractLsb' 45 3).isLt
  rw [placeOf, placeIndexed, charIndex, Place.mk.injEq]
  omega

theorem readChar_placeIndexed {q : Nat} (h : InStore s (q / 8)) (f : Character → Result) :
    readChar s (placeIndexed q) f = f (charAt s.mem q) := readChar_of_lt (p := placeIndexed q) h f

theorem readChar_of_not_inStore {q : Nat} (h : ¬ InStore s (q / 8)) (f : Character → Result) :
    readChar s (placeIndexed q) f = .fault (.storeBound (q / 8)) :=
  readWord_of_ge (Nat.le_of_not_lt h) _

theorem writeChar_of_not_inStore {q : Nat} (h : ¬ InStore s (q / 8)) (ch : Character)
    (f : State → Result) : writeChar s (placeIndexed q) ch f = .fault (.storeBound (q / 8)) :=
  readWord_of_ge (Nat.le_of_not_lt h) _

/-- The state with the q-th character of the store replaced. -/
def putChar (s : State) (q : Nat) (ch : Character) : State :=
  s.putWord (q / 8) (setChar (s.mem.read (q / 8)) (q % 8) ch)

theorem writeChar_placeIndexed {q : Nat} (h : InStore s (q / 8)) (ch : Character)
    (f : State → Result) : writeChar s (placeIndexed q) ch f = f (putChar s q ch) :=
  writeChar_of_lt (p := placeIndexed q) h ch f

theorem charAt_putChar (hm : s.mem.wf = true) (q : Nat) (ch : Character) (j : Nat) :
    charAt (putChar s q ch).mem j = if j = q then ch else charAt s.mem j := by
  rw [putChar, State.putWord_mem, charAt_setChar hm _ (Nat.mod_lt _ (by decide)), Nat.div_add_mod]

/-! ## The store after k moves -/

/-- u is s after k moves from index src to index dst, none of them with zero fill (R127). -/
structure Moved (s u : State) (src dst k : Nat) : Prop where
  frame : u = { s with mem := u.mem }
  wf : u.mem.wf = true
  chars : ∀ q, charAt u.mem q =
    if dst ≤ q ∧ q < dst + k then movedChar s.mem src dst (q - dst) else charAt s.mem q

theorem Moved.start (hm : s.mem.wf = true) (src dst : Nat) : Moved s s src dst 0 :=
  ⟨rfl, hm, fun q => by rw [if_neg (by omega)]⟩

theorem Moved.inst (h : Moved s u src dst k) : u.inst = s.inst := by rw [h.frame]

theorem Moved.inStore (h : Moved s u src dst k) {a : Nat} (ha : InStore s a) : InStore u a := by
  rwa [InStore, h.inst]

/-- The character that move k reads is the one the statement names: where the destination begins
inside the source, a move reads what an earlier one has written. -/
theorem Moved.source (h : Moved s u src dst k) :
    charAt u.mem (src + k) = movedChar s.mem src dst k := by
  rw [h.chars]
  by_cases hover : src < dst
  · by_cases hk : dst ≤ src + k
    · rw [if_pos ⟨hk, by omega⟩, movedChar, movedChar, if_pos hover, if_pos hover,
        show k = src + k - dst + (dst - src) by omega, Nat.add_mod_right,
        show src + (src + k - dst + (dst - src)) - dst = src + k - dst by omega]
    · rw [if_neg (fun e => hk e.1), movedChar, if_pos hover, Nat.mod_eq_of_lt (by omega)]
  · rw [if_neg (by omega), movedChar, if_neg hover]

/-- Move k: the character is read and then written. -/
theorem Moved.move (h : Moved s u src dst k) :
    Moved s (putChar u (dst + k) (charAt u.mem (src + k))) src dst (k + 1) where
  frame := by
    have e := h.frame
    rw [putChar, State.putWord, e]
  wf := Memory.wf_write h.wf _ _
  chars := fun q => by
    rw [charAt_putChar h.wf, h.source, h.chars]
    by_cases hq : q = dst + k
    · rw [if_pos hq, if_pos (by omega), hq, Nat.add_sub_cancel_left]
    · rw [if_neg hq]
      by_cases hin : dst ≤ q ∧ q < dst + k
      · rw [if_pos hin, if_pos (by omega)]
      · rw [if_neg hin, if_neg (by omega)]

/-! ## The loop as moves -/

/-- What the loop does with one character: the move, and zero fill or the next one. -/
theorem transfer_succ {m : Nat} {K : State → Nat → Result} {p q : Nat} (hp : InStore s (p / 8))
    (hq : InStore s (q / 8)) :
    transfer stop (n + 1) (placeIndexed p) (placeIndexed q) m s K =
      if n = 0 ∨ stop (charAt s.mem p) = true then
        K ((putChar s q (charAt s.mem p)).putWord (q / 8)
          (zeroTail ((putChar s q (charAt s.mem p)).mem.read (q / 8)) (q % 8))) (m + 1)
      else transfer stop n (placeIndexed (p + 1)) (placeIndexed (q + 1)) (m + 1)
        (putChar s q (charAt s.mem p)) K := by
  rw [transfer, readChar_placeIndexed hp, writeChar_placeIndexed hq, placeIndexed_succ,
    placeIndexed_succ]
  split
  · exact (readWord_of_lt (s := putChar s q _) hq _).trans
      (writeWord_of_lt (s := putChar s q _) hq _ _)
  · rfl

/-- n moves, none of which ends the transfer: r more characters are left. -/
theorem transfer_moves {r : Nat} {K : State → Nat → Result} (hm : s.mem.wf = true) (hr : 0 < r)
    (hin : ∀ j, j < n → InStore s ((src + j) / 8) ∧ InStore s ((dst + j) / 8))
    (hgo : ∀ j, j < n → stop (movedChar s.mem src dst j) = false) :
    ∃ u, Moved s u src dst n ∧
      transfer stop (n + r) (placeIndexed src) (placeIndexed dst) 0 s K =
        transfer stop r (placeIndexed (src + n)) (placeIndexed (dst + n)) n u K := by
  induction n generalizing r with
  | zero => exact ⟨s, .start hm src dst, by rw [Nat.zero_add]; rfl⟩
  | succ n ih =>
    obtain ⟨u, hu, he⟩ := ih (r := r + 1) (Nat.succ_pos r) (fun j hj => hin j (by omega))
      (fun j hj => hgo j (by omega))
    obtain ⟨hsrc, hdst⟩ := hin n (Nat.lt_succ_self n)
    refine ⟨_, hu.move, ?_⟩
    rw [show n + 1 + r = n + (r + 1) by omega, he,
      transfer_succ (hu.inStore hsrc) (hu.inStore hdst), if_neg]
    · rfl
    · rw [hu.source, hgo n (Nat.lt_succ_self n)]
      simp only [Bool.false_eq_true, or_false]
      omega

/-- The state a transfer of n + 1 characters leaves, from the state after n moves. -/
def lastMove (u : State) (src dst n : Nat) : State :=
  (putChar u (dst + n) (charAt u.mem (src + n))).putWord ((dst + n) / 8)
    (zeroTail ((putChar u (dst + n) (charAt u.mem (src + n))).mem.read ((dst + n) / 8))
      ((dst + n) % 8))

theorem charAt_lastMove (h : Moved s u src dst n) (q : Nat) :
    charAt (lastMove u src dst n).mem q =
      if q / 8 = (dst + n) / 8 ∧ dst + n < q then 0#6
      else if dst ≤ q ∧ q ≤ dst + n then movedChar s.mem src dst (q - dst)
      else charAt s.mem q := by
  rw [lastMove, State.putWord_mem, charAt_zeroTail h.move.wf, h.move.chars]
  by_cases hzero : q / 8 = (dst + n) / 8 ∧ dst + n < q
  · rw [if_pos hzero, if_pos (by omega)]
  · rw [if_neg hzero, if_neg (by omega)]
    by_cases hin : dst ≤ q ∧ q ≤ dst + n
    · rw [if_pos hin, if_pos (by omega)]
    · rw [if_neg hin, if_neg (by omega)]

theorem wf_lastMove (h : Moved s u src dst n) : (lastMove u src dst n).mem.wf = true :=
  Memory.wf_write h.move.wf _ _

theorem lastMove_frame (h : Moved s u src dst n) :
    lastMove u src dst n = { s with mem := (lastMove u src dst n).mem } := by
  have e := h.frame
  rw [lastMove, putChar, State.putWord, State.putWord, e]

theorem transferred_lastMove (h : Moved s u src dst n) :
    Transferred s (lastMove u src dst n) src dst (n + 1) := by
  refine ⟨fun k hk => ?_, fun q hq hw => ?_, fun q hw hq => ?_⟩
  · rw [charAt_lastMove h, if_neg (by omega), if_pos (by omega), Nat.add_sub_cancel_left]
  · rw [charAt_lastMove h, if_pos ⟨hw, by omega⟩]
  · rw [charAt_lastMove h, if_neg (by omega), if_neg (by omega)]

/-- Outside the words of the destination nothing changes. -/
theorem read_lastMove (h : Moved s u src dst n) {a : Nat}
    (ha : a < dst / 8 ∨ (dst + n) / 8 < a) :
    (lastMove u src dst n).mem.read a = s.mem.read a :=
  read_eq_of_charAt_eq fun q hq => by
    rw [charAt_lastMove h, if_neg (by omega), if_neg (by omega)]

/-- A transfer ends with its last character, by count or by the stopping character. -/
theorem transfer_ends {r : Nat} {K : State → Nat → Result} (hm : s.mem.wf = true)
    (hin : ∀ j, j ≤ n → InStore s ((src + j) / 8) ∧ InStore s ((dst + j) / 8))
    (hgo : ∀ j, j < n → stop (movedChar s.mem src dst j) = false)
    (hend : r = 0 ∨ stop (movedChar s.mem src dst n) = true) :
    ∃ u, Moved s u src dst n ∧
      transfer stop (n + (r + 1)) (placeIndexed src) (placeIndexed dst) 0 s K =
        K (lastMove u src dst n) (n + 1) := by
  obtain ⟨u, hu, he⟩ := transfer_moves (K := K) hm (Nat.succ_pos r)
    (fun j hj => hin j (Nat.le_of_lt hj)) hgo
  obtain ⟨hsrc, hdst⟩ := hin n (Nat.le_refl n)
  refine ⟨u, hu, ?_⟩
  rw [he, transfer_succ (hu.inStore hsrc) (hu.inStore hdst), if_pos (by rwa [hu.source])]
  rfl

/-- A transfer stops at its first character whose place, in the source or else in the destination,
is outside the store (R44). -/
theorem transfer_faults {r : Nat} {K : State → Nat → Result} (hm : s.mem.wf = true)
    (hin : ∀ j, j < n → InStore s ((src + j) / 8) ∧ InStore s ((dst + j) / 8))
    (hgo : ∀ j, j < n → stop (movedChar s.mem src dst j) = false) :
    (¬ InStore s ((src + n) / 8) →
      transfer stop (n + (r + 1)) (placeIndexed src) (placeIndexed dst) 0 s K =
        .fault (.storeBound ((src + n) / 8))) ∧
    (InStore s ((src + n) / 8) → ¬ InStore s ((dst + n) / 8) →
      transfer stop (n + (r + 1)) (placeIndexed src) (placeIndexed dst) 0 s K =
        .fault (.storeBound ((dst + n) / 8))) := by
  obtain ⟨u, hu, he⟩ := transfer_moves (K := K) hm (Nat.succ_pos r) hin hgo
  rw [he, transfer]
  refine ⟨fun hsrc => readChar_of_not_inStore (by rwa [InStore, hu.inst]) _, fun hsrc hdst => ?_⟩
  rw [readChar_placeIndexed (hu.inStore hsrc)]
  exact writeChar_of_not_inStore (by rwa [InStore, hu.inst]) _ _

/-! ## 105E and 106E -/

theorem exec105E_eq (o : Operands) (s : State) : exec (.op105E o) s =
    transferOrder 105 (fun _ _ => false) o s fun _ s1 _ => nextOrder s1 := rfl

theorem exec106E_eq (o : Operands) (s : State) : exec (.op106E o) s =
    transferOrder 106 isNL o s fun z s1 moved =>
      writeWord s1 z.toNat (BitVec.ofNat 48 moved) nextOrder := rfl

section OperandsRead

variable {z : Field15} {p : Nat} {f : Installation → Character → Bool}
  {K : Field15 → State → Nat → Result} (hz : o.z = some z) (hx : InStore s o.x.toNat)
  (hy : InStore s o.y.toNat) (hs : InStore s z.toNat)
include hz hx hy hs

theorem transferOrder_of_negative (h : 2 ^ 47 ≤ (s.mem.read z.toNat).toNat) :
    transferOrder p f o s K = .refused .negativeCount := by
  have hsign : (s.mem.read z.toNat).getLsbD 47 = true := by
    have hlt := (s.mem.read z.toNat).isLt
    rw [← BitVec.testBit_toNat, Nat.testBit_eq_decide_div_mod_eq, decide_eq_true_eq]
    omega
  rw [transferOrder, needZ_of_some hz, readWord_of_lt hx, readWord_of_lt hy, readWord_of_lt hs,
    if_pos hsign]

/-- With its operands read and its count not negative, the order is the transfer (R128, R129). -/
theorem transferOrder_of_count (h : (s.mem.read z.toNat).toNat < 2 ^ 47) :
    transferOrder p f o s K = transfer (f s.inst) (s.mem.read z.toNat).toNat
      (placeIndexed (charIndex s.inst (s.mem.read o.x.toNat)))
      (placeIndexed (charIndex s.inst (s.mem.read o.y.toNat))) 0 s (K z) := by
  have hsign : (s.mem.read z.toNat).getLsbD 47 ≠ true := by
    rw [← BitVec.testBit_toNat, Nat.testBit_lt_two_pow h]
    exact Bool.false_ne_true
  rw [transferOrder, needZ_of_some hz, readWord_of_lt hx, readWord_of_lt hy, readWord_of_lt hs,
    if_neg hsign, placeOf_eq, placeOf_eq]

end OperandsRead

/-- Settles O46: n = m + 1 characters are m moves and the last one. -/
theorem charactersTransferred : Obligations.CharactersTransferred := by
  unfold Obligations.CharactersTransferred
  intro o s z n src dst hm hz hx hy hs hn hlt hsrc hdst hsrcin hdstin
  have hexec : exec (.op105E o) s = transfer (fun _ => false) n (placeIndexed src)
      (placeIndexed dst) 0 s fun s1 _ => nextOrder s1 := by
    rw [hn] at hlt ⊢
    rw [hsrc, hdst, exec105E_eq, transferOrder_of_count hz hx hy hs hlt]
  cases n with
  | zero => exact ⟨s.advance, hexec, rfl, fun _ => rfl, fun h => absurd h (Nat.lt_irrefl 0)⟩
  | succ m =>
    obtain ⟨u, hu, he⟩ := transfer_ends (stop := fun _ => false) (src := src) (dst := dst) (r := 0)
      (K := fun s1 _ => nextOrder s1) hm
      (fun j (hj : j ≤ m) => ⟨Nat.div_lt_of_lt_mul (by omega), Nat.div_lt_of_lt_mul (by omega)⟩)
      (fun _ _ => rfl) (.inl rfl)
    refine ⟨(lastMove u src dst m).advance, hexec.trans he, ?_, fun h => absurd h (by omega),
      fun _ => ⟨transferred_lastMove hu, fun a ha => read_lastMove hu ha⟩⟩
    rw [NextWithStore, State.advance, lastMove_frame hu]

/-- The NL test of 106E (R129). -/
theorem isNL_eq_false_iff {c : Installation} {ch : Character} :
    isNL c ch = false ↔ ch ≠ c.nlCode := decide_eq_false_iff_not

/-- Settles O47: moved = m + 1 characters are m moves that meet no NL and the last one, after which
the number goes to z. -/
theorem charactersTransferredToNL : Obligations.CharactersTransferredToNL := by
  unfold Obligations.CharactersTransferredToNL
  intro o s z n src dst moved hm hz hx hy hs hn hlt hsrc hdst hle hno hend hsrcin hdstin
  have hexec : exec (.op106E o) s = transfer (isNL s.inst) n (placeIndexed src)
      (placeIndexed dst) 0 s fun s1 moved =>
        writeWord s1 z.toNat (BitVec.ofNat 48 moved) nextOrder := by
    rw [hn] at hlt ⊢
    rw [hsrc, hdst, exec106E_eq, transferOrder_of_count hz hx hy hs hlt]
  have hcount : (BitVec.ofNat 48 moved).toNat = moved := by
    rw [BitVec.toNat_ofNat]
    omega
  cases moved with
  | zero =>
    obtain rfl : n = 0 := by omega
    refine ⟨(s.putWord z.toNat (BitVec.ofNat 48 0)).advance, s,
      hexec.trans (writeWord_of_lt hs _ _), rfl, ?_, fun a ha => ?_, fun _ => rfl,
      fun h => absurd h (Nat.lt_irrefl 0)⟩
    · rw [State.advance_mem, State.putWord_mem, Memory.read_write_self hm, hcount]
    · exact Memory.read_write_of_ne hm ha _
  | succ m =>
    obtain ⟨r, rfl⟩ : ∃ r, n = m + (r + 1) := ⟨n - (m + 1), by omega⟩
    obtain ⟨u, hu, he⟩ := transfer_ends (stop := isNL s.inst) (r := r)
      (K := fun s1 moved => writeWord s1 z.toNat (BitVec.ofNat 48 moved) nextOrder) hm
      (fun j (hj : j ≤ m) => ⟨Nat.div_lt_of_lt_mul (by omega), Nat.div_lt_of_lt_mul (by omega)⟩)
      (fun j hj => isNL_eq_false_iff.mpr (hno j (by omega)))
      (hend.imp (fun e => by omega) (fun e => decide_eq_true e.2))
    have hinst : (lastMove u src dst m).inst = s.inst := by rw [lastMove_frame hu]
    refine ⟨((lastMove u src dst m).putWord z.toNat (BitVec.ofNat 48 (m + 1))).advance,
      lastMove u src dst m,
      hexec.trans (he.trans (writeWord_of_lt (by rwa [hinst]) _ _)), ?_, ?_, fun a ha => ?_,
      fun h => absurd h (by omega),
      fun _ => ⟨transferred_lastMove hu, fun a ha => read_lastMove hu ha⟩⟩
    · rw [NextWithStore, State.advance, State.putWord, lastMove_frame hu]
    · rw [State.advance_mem, State.putWord_mem, Memory.read_write_self (wf_lastMove hu), hcount]
    · exact Memory.read_write_of_ne (wf_lastMove hu) ha _

/-- Settles O48: a negative count is refused before anything is moved; else the moves go on as far
as both places are in the store. -/
theorem characterTransfersStop : Obligations.CharacterTransfersStop := by
  unfold Obligations.CharacterTransfersStop
  intro o s z n src dst hm hz hx hy hs hn hsrc hdst
  subst hn hsrc hdst
  rw [exec105E_eq, exec106E_eq]
  refine ⟨fun h => ⟨transferOrder_of_negative hz hx hy hs h,
    transferOrder_of_negative hz hx hy hs h⟩, fun hlt k hk hin i hi => ?_⟩
  obtain ⟨r, hr⟩ : ∃ r, (s.mem.read z.toNat).toNat = k + (r + 1) :=
    ⟨(s.mem.read z.toNat).toNat - (k + 1), by omega⟩
  obtain ⟨stop, K, hexec, hgo⟩ : ∃ (stop : Character → Bool) (K : State → Nat → Result),
      exec i s = transfer stop (s.mem.read z.toNat).toNat
        (placeIndexed (charIndex s.inst (s.mem.read o.x.toNat)))
        (placeIndexed (charIndex s.inst (s.mem.read o.y.toNat))) 0 s K ∧
      ∀ j, j < k → stop (movedChar s.mem (charIndex s.inst (s.mem.read o.x.toNat))
        (charIndex s.inst (s.mem.read o.y.toNat)) j) = false := by
    obtain rfl | ⟨rfl, hno⟩ := hi
    · exact ⟨_, _, (exec105E_eq o s).trans (transferOrder_of_count hz hx hy hs hlt),
        fun _ _ => rfl⟩
    · exact ⟨_, _, (exec106E_eq o s).trans (transferOrder_of_count hz hx hy hs hlt),
        fun j hj => isNL_eq_false_iff.mpr (hno j hj)⟩
  rw [hexec, hr]
  exact transfer_faults hm hin hgo

end Sys2Proof.Claims
end

section
/-!
PROOF. The printer preparation orders 27E and 140E (spec/44_printer_27E_140E.md): the loop of 27E
follows `Scanned`, the store being the one before with the writes made; the loop of 140E ors bits.
-/

namespace Sys2Proof.Claims

open Sys2Proof.Machine

variable {s t u : State} {o : Operands} {x : Nat} {ws : List (Nat × Character)}

/-! ## Writes to a destination field -/

theorem lastWrite_append (q : Nat) (ws ws' : List (Nat × Character)) :
    lastWrite q (ws ++ ws') = (lastWrite q ws').or (lastWrite q ws) := by
  induction ws with
  | nil => simp [lastWrite]
  | cons p rest ih => rw [List.cons_append, lastWrite, lastWrite, ih, Option.or_assoc]

/-- One write more. -/
theorem charAfter_append (m : Memory) (x d q : Nat) (ws : List (Nat × Character)) (ch : Character) :
    charAfter m x (ws ++ [(d, ch)]) q =
      if q = 8 * x + d then ch else charAfter m x ws q := by
  unfold charAfter
  by_cases hq : q < 8 * x
  · rw [if_pos hq, if_pos hq, if_neg (by omega)]
  · rw [if_neg hq, if_neg hq, lastWrite_append]
    by_cases hd : q = 8 * x + d
    · rw [if_pos hd, hd, Nat.add_sub_cancel_left]
      simp [lastWrite]
    · rw [if_neg hd]
      have hne : d ≠ q - 8 * x := by omega
      simp [lastWrite, hne]

/-- u is s with the writes ws made to places of the field that begins in word x. -/
structure Written (s u : State) (x : Nat) (ws : List (Nat × Character)) : Prop where
  frame : u = { s with mem := u.mem }
  wf : u.mem.wf = true
  chars : ∀ q, charAt u.mem q = charAfter s.mem x ws q

theorem Written.start (hm : s.mem.wf = true) (x : Nat) : Written s s x [] :=
  ⟨rfl, hm, fun q => by unfold charAfter; split <;> rfl⟩

theorem Written.inst (h : Written s u x ws) : u.inst = s.inst := by rw [h.frame]

theorem Written.inStore_iff (h : Written s u x ws) (a : Nat) : InStore u a ↔ InStore s a := by
  rw [InStore, h.inst]

/-- The state with a character written to place d of the field. -/
def putPlace (x d : Nat) (ch : Character) (u : State) : State :=
  u.putWord (x + d / 8) (setChar (u.mem.read (x + d / 8)) (d % 8) ch)

theorem Written.put (h : Written s u x ws) (d : Nat) (ch : Character) :
    Written s (putPlace x d ch u) x (ws ++ [(d, ch)]) where
  frame := by
    have e := h.frame
    rw [putPlace, State.putWord, e]
  wf := Memory.wf_write h.wf _ _
  chars := fun q => by
    rw [putPlace, State.putWord_mem, charAt_setChar h.wf _ (Nat.mod_lt _ (by decide)), h.chars,
      charAfter_append]
    have hplace : 8 * (x + d / 8) + d % 8 = 8 * x + d := by omega
    rw [hplace]

theorem writeChar_placeAt {d : Nat} (h : InStore u (x + d / 8)) (ch : Character)
    (k : State → Result) : writeChar u (placeAt x d) ch k = k (putPlace x d ch u) :=
  writeChar_of_lt (p := placeAt x d) h ch k

theorem writeChar_placeAt_faults {d : Nat} (h : ¬ InStore u (x + d / 8)) (ch : Character)
    (k : State → Result) :
    writeChar u (placeAt x d) ch k = .fault (.storeBound (x + d / 8)) :=
  readWord_of_ge (Nat.le_of_not_lt h) _

theorem readChar_placeAt {i : Nat} (h : InStore u (x + i / 8)) (k : Character → Result) :
    readChar u (placeAt x i) k = k (charAt u.mem (8 * x + i)) := by
  rw [readChar_of_lt (p := placeAt x i) h, charAt, Nat.mul_add_div (by decide), Nat.mul_add_mod]
  rfl

theorem readChar_placeAt_faults {i : Nat} (h : ¬ InStore u (x + i / 8)) (k : Character → Result) :
    readChar u (placeAt x i) k = .fault (.storeBound (x + i / 8)) :=
  readWord_of_ge (Nat.le_of_not_lt h) _

/-- The character 27E reads once the writes are made (R113). -/
theorem Written.sourceChar (h : Written s u o.x.toNat ws) {i : Nat}
    (hi : InStore s (o.y.toNat + 1 + i / 8)) (k : Character → Result) :
    readChar u (placeAt (o.y.toNat + 1) i) k = k (sourceChar s.mem o ws i) := by
  rw [readChar_placeAt ((h.inStore_iff _).mpr hi), h.chars]
  rfl

/-! ## Filling the skipped places (R114) -/

/-- Filling n places makes n writes. -/
theorem fillPlaces_writes {ch : Character} {n d : Nat} {k : State → Result}
    (h : Written s u x ws) (hin : ∀ q, d ≤ q → q < d + n → InStore s (x + q / 8)) :
    ∃ v, Written s v x (ws ++ (List.range' d n).map fun q => (q, ch)) ∧
      fillPlaces x (some ch) n d u k = k v := by
  induction n generalizing d u ws with
  | zero => exact ⟨u, by simpa using h, rfl⟩
  | succ n ih =>
    obtain ⟨v, hv, he⟩ := ih (h.put d ch) (d := d + 1) (fun q hq hlt => hin q (by omega) (by omega))
    refine ⟨v, by simpa [List.range'_succ] using hv, ?_⟩
    have hd : InStore u (x + d / 8) := (h.inStore_iff _).mpr (hin d (Nat.le_refl d) (by omega))
    rw [fillPlaces, writeChar_placeAt hd, he]

/-- The first place to fill that is outside the store is where filling stops. -/
theorem fillPlaces_faults {ch : Character} {n d q : Nat} {k : State → Result} (hd : d ≤ q)
    (hq : q < d + n) (hin : ∀ p, d ≤ p → p < q → InStore u (x + p / 8))
    (hout : ¬ InStore u (x + q / 8)) :
    fillPlaces x (some ch) n d u k = .fault (.storeBound (x + q / 8)) := by
  induction n generalizing d u with
  | zero => omega
  | succ n ih =>
    rw [fillPlaces]
    obtain rfl | hlt := Nat.eq_or_lt_of_le hd
    · exact writeChar_placeAt_faults hout ch _
    · rw [writeChar_placeAt (hin d (Nat.le_refl d) hlt)]
      exact ih (u := putPlace x d ch u) hlt (by omega) (fun p hp => hin p (by omega)) hout

/-- What a tabulate pair writes: FILL into the skipped places, or nothing. -/
theorem fillPlaces_fills {d e : Nat} {k : State → Result} (h : Written s u x ws)
    (hin : ∀ p ∈ fills s.inst.fill27 d e, InStore s (x + p.1 / 8)) :
    ∃ v, Written s v x (ws ++ fills s.inst.fill27 d e) ∧
      fillPlaces x s.inst.fill27 (e - d) d u k = k v := by
  cases hfill : s.inst.fill27 with
  | none =>
    refine ⟨u, by simpa [fills] using h, ?_⟩
    cases e - d <;> rfl
  | some ch =>
    refine fillPlaces_writes h fun q hq hlt => hin (q, ch) ?_
    rw [hfill]
    exact List.mem_map.mpr ⟨q, List.mem_range'_1.mpr ⟨hq, hlt⟩, rfl⟩

/-! ## One pass of the loop of 27E (R114) -/

section Pass

variable {z n i d : Nat} (hu : Written s u o.x.toNat ws)
include hu

theorem anelexLoop_unterminated (h : s.inst.max27 ≤ i) :
    anelexLoop o.x.toNat o.y.toNat z n i d u = .refused .unterminated27E := by
  cases n with
  | zero => rfl
  | succ n => rw [anelexLoop, if_pos (by rwa [hu.inst])]

section Below

variable (hmax : i < s.inst.max27)
include hmax

theorem anelexLoop_faults_source (hi : ¬ InStore s (o.y.toNat + 1 + i / 8)) :
    anelexLoop o.x.toNat o.y.toNat z (n + 1) i d u =
      .fault (.storeBound (o.y.toNat + 1 + i / 8)) := by
  rw [anelexLoop, if_neg (by rw [hu.inst]; omega),
    readChar_placeAt_faults (mt (hu.inStore_iff _).mp hi)]

variable (hi : InStore s (o.y.toNat + 1 + i / 8))
include hi

/-- An NL or PT: its pair is read and the order ends. -/
theorem anelexLoop_ends (he : Ends s.inst (sourceChar s.mem o ws i)) :
    anelexLoop o.x.toNat o.y.toNat z (n + 1) i d u =
      readChar u (placeAt (o.y.toNat + 1) (i + 1)) fun c2 =>
        writeWord (u.skipDraws 1) z (pairWord (sourceChar s.mem o ws i) c2 u.drawn) nextOrder := by
  rw [anelexLoop, if_neg (by rw [hu.inst]; omega), hu.sourceChar hi, hu.inst, if_pos he]

/-- A TAB: its pair is read and the places up to the target are filled. -/
theorem anelexLoop_tab (he : ¬ Ends s.inst (sourceChar s.mem o ws i))
    (ht : sourceChar s.mem o ws i = s.inst.tabCode) :
    anelexLoop o.x.toNat o.y.toNat z (n + 1) i d u =
      readChar u (placeAt (o.y.toNat + 1) (i + 1)) fun c2 =>
        fillPlaces o.x.toNat s.inst.fill27 (tabTarget s.inst c2 d - d) d u fun v =>
          anelexLoop o.x.toNat o.y.toNat z n (i + 2) (tabTarget s.inst c2 d) v := by
  rw [anelexLoop, if_neg (by rw [hu.inst]; omega), hu.sourceChar hi, hu.inst, if_neg he, if_pos ht]

/-- A plain character is copied. -/
theorem anelexLoop_plain (he : ¬ Ends s.inst (sourceChar s.mem o ws i))
    (ht : sourceChar s.mem o ws i ≠ s.inst.tabCode) :
    anelexLoop o.x.toNat o.y.toNat z (n + 1) i d u =
      writeChar u (placeAt o.x.toNat d) (sourceChar s.mem o ws i) fun v =>
        anelexLoop o.x.toNat o.y.toNat z n (i + 1) (d + 1) v := by
  rw [anelexLoop, if_neg (by rw [hu.inst]; omega), hu.sourceChar hi, hu.inst, if_neg he, if_neg ht]

end Below

end Pass

/-! ## The loop follows `Scanned` -/

/-- Where `Scanned` comes, the loop comes, with the writes made and passes enough left. -/
theorem anelexLoop_scanned {z i d : Nat} (hm : s.mem.wf = true)
    (h : Scanned s.inst s.mem o i d ws)
    (hsrc : ∀ j, j < i → InStore s (o.y.toNat + 1 + j / 8))
    (hdst : ∀ p ∈ ws, InStore s (o.x.toNat + p.1 / 8)) :
    ∃ u n, Written s u o.x.toNat ws ∧ s.inst.max27 ≤ n + i ∧
      anelexLoop o.x.toNat o.y.toNat z s.inst.max27 0 0 s =
        anelexLoop o.x.toNat o.y.toNat z n i d u := by
  induction h with
  | start => exact ⟨s, _, .start hm _, Nat.le_refl _, rfl⟩
  | @tab i d ws _ hmax he ht ih =>
    obtain ⟨u, n, hu, hn, e⟩ := ih (fun j hj => hsrc j (by omega))
      (fun p hp => hdst p (List.mem_append_left _ hp))
    obtain ⟨n, rfl⟩ : ∃ m, n = m + 1 := ⟨n - 1, by omega⟩
    obtain ⟨v, hv, e'⟩ := fillPlaces_fills (k := fun v => anelexLoop o.x.toNat o.y.toNat z n (i + 2)
      (tabTarget s.inst (sourceChar s.mem o ws (i + 1)) d) v) hu
      (fun p hp => hdst p (List.mem_append_right _ hp))
    refine ⟨v, n, hv, by omega, ?_⟩
    rw [e, anelexLoop_tab hu hmax (hsrc i (by omega)) he ht,
      hu.sourceChar (hsrc (i + 1) (by omega)), e']
  | @plain i d ws _ hmax he ht ih =>
    obtain ⟨u, n, hu, hn, e⟩ := ih (fun j hj => hsrc j (by omega))
      (fun p hp => hdst p (List.mem_append_left _ hp))
    obtain ⟨n, rfl⟩ : ∃ m, n = m + 1 := ⟨n - 1, by omega⟩
    have hd : InStore s (o.x.toNat + d / 8) :=
      hdst (d, _) (List.mem_append_right _ (List.mem_singleton.mpr rfl))
    refine ⟨_, n, hu.put d _, by omega, ?_⟩
    rw [e, anelexLoop_plain hu hmax (hsrc i (by omega)) he ht,
      writeChar_placeAt ((hu.inStore_iff _).mpr hd)]

theorem exec27E_eq {z : Field15} (hz : o.z = some z) : exec (.op27E o) s =
    anelexLoop o.x.toNat o.y.toNat z.toNat s.inst.max27 0 0 s :=
  needZ_of_some hz _

theorem pairWord_chars (c1 c2 : Character) (free : Word) :
    (pairWord c1 c2 free).extractLsb' 6 6 = c1 ∧ (pairWord c1 c2 free).extractLsb' 0 6 = c2 := by
  unfold pairWord
  constructor
  · rw [BitVec.extractLsb'_append_eq_of_add_le (by decide)]
    exact BitVec.extractLsb'_append_eq_left
  · rw [BitVec.extractLsb'_append_eq_of_add_le (by decide)]
    exact BitVec.extractLsb'_append_eq_right

/-- Settles O41: the loop comes to the NL or PT with the writes made, reads its pair, and writes the
pair into z. -/
theorem printerPreparation : Obligations.PrinterPreparation := by
  unfold Obligations.PrinterPreparation
  intro o s z ws e d hm hz hs hscan hmax hends hin hws
  have hsrc : ∀ j, j ≤ e + 1 → InStore s (o.y.toNat + 1 + j / 8) := fun j hj => by
    have : j / 8 ≤ (e + 1) / 8 := Nat.div_le_div_right hj
    exact Nat.lt_of_le_of_lt (by omega) hin
  obtain ⟨u, n, hu, hn, he⟩ := anelexLoop_scanned (z := z.toNat) hm hscan
    (fun j hj => hsrc j (by omega)) hws
  obtain ⟨n, rfl⟩ : ∃ m, n = m + 1 := ⟨n - 1, by omega⟩
  obtain ⟨v, hv⟩ : ∃ v, v = pairWord (sourceChar s.mem o ws e) (sourceChar s.mem o ws (e + 1))
    u.drawn := ⟨_, rfl⟩
  obtain ⟨hfirst, hsecond⟩ := pairWord_chars (sourceChar s.mem o ws e)
    (sourceChar s.mem o ws (e + 1)) u.drawn
  have hnext : exec (.op27E o) s = .next ((u.skipDraws 1).putWord z.toNat v).advance := by
    rw [exec27E_eq hz, he, anelexLoop_ends hu hmax (hsrc e (by omega)) hends,
      hu.sourceChar (hsrc (e + 1) (Nat.le_refl _)), ← hv]
    exact writeWord_of_lt (s := u.skipDraws 1) ((hu.inStore_iff _).mpr hs) _ _
  have hread := Memory.read_write_self hu.wf z.toNat v
  refine ⟨_, hnext, ?_, ?_, ?_, fun q hq => ?_⟩
  · rw [NextWithDraws, State.advance, State.putWord, State.skipDraws, hu.frame]
  · rw [State.advance_mem, State.putWord_mem, State.skipDraws_mem, hread, hv, hfirst]
  · rw [State.advance_mem, State.putWord_mem, State.skipDraws_mem, hread, hv, hsecond]
  · rw [← hu.chars, State.advance_mem, State.putWord_mem, State.skipDraws_mem, charAt,
      Memory.read_write_of_ne hu.wf hq, charAt]

/-- Settles O42: the loop comes to source character e with the writes made, and the pass it is in
has its accesses in the order of R114. -/
theorem printerPreparationStops : Obligations.PrinterPreparationStops := by
  unfold Obligations.PrinterPreparationStops
  intro o s z ws e d ch hm hz hscan hsrc hws hch
  subst hch
  obtain ⟨u, n, hu, hn, he⟩ := anelexLoop_scanned (z := z.toNat) hm hscan hsrc hws
  rw [exec27E_eq hz, he]
  refine ⟨anelexLoop_unterminated hu, fun hmax hout => ?_, fun hmax hin => ?_⟩
  · obtain ⟨n, rfl⟩ : ∃ m, n = m + 1 := ⟨n - 1, by omega⟩
    exact anelexLoop_faults_source hu hmax hout
  obtain ⟨n, rfl⟩ : ∃ m, n = m + 1 := ⟨n - 1, by omega⟩
  have second : ∀ {k : Character → Result}, ¬ InStore s (o.y.toNat + 1 + (e + 1) / 8) →
      readChar u (placeAt (o.y.toNat + 1) (e + 1)) k =
        .fault (.storeBound (o.y.toNat + 1 + (e + 1) / 8)) := fun hout =>
    readChar_placeAt_faults (mt (hu.inStore_iff _).mp hout) _
  refine ⟨fun hpair hout => ?_, fun hends hin2 hout => ?_, fun hnot hplain hout => ?_,
    fun hnot htab hin2 q hfill hdq hq hbelow hout => ?_⟩
  · by_cases hends : Ends s.inst (sourceChar s.mem o ws e)
    · rw [anelexLoop_ends hu hmax hin hends, second hout]
    · rw [anelexLoop_tab hu hmax hin hends (hpair.resolve_left hends), second hout]
  · rw [anelexLoop_ends hu hmax hin hends, hu.sourceChar hin2]
    exact writeWord_of_ge (s := u.skipDraws 1)
      (Nat.le_of_not_lt (mt (hu.inStore_iff _).mp hout)) _ _
  · rw [anelexLoop_plain hu hmax hin hnot hplain,
      writeChar_placeAt_faults (mt (hu.inStore_iff _).mp hout)]
  · obtain ⟨c, hc⟩ := Option.ne_none_iff_exists'.mp hfill
    rw [anelexLoop_tab hu hmax hin hnot htab, hu.sourceChar hin2, hc]
    exact fillPlaces_faults hdq (by omega)
      (fun p hp hlt => (hu.inStore_iff _).mpr (hbelow p hp hlt)) (mt (hu.inStore_iff _).mp hout)

/-! ## 140E -/

/-- u is s with bits of zv ored into image words of the characters i of xv in the list l (R116). -/
structure Imaged (y : Nat) (xv zv : Word) (l : List Nat) (s u : State) : Prop where
  change : StoreChange s u
  bits : ∀ a b, b < 48 → ((u.mem.read a).getLsbD b = true ↔ (s.mem.read a).getLsbD b = true ∨
    ∃ i ∈ l, imageWord s.inst y (charOf xv i) = a ∧ zv.getLsbD (b + i) = true)

/-- Inside the store the loop of 140E places the bits of all its characters. -/
theorem placeBits_images {y : Nat} {xv zv : Word} {l : List Nat} {k : State → Result}
    (hm : s.mem.wf = true) (hin : ∀ i ∈ l, InStore s (imageWord s.inst y (charOf xv i))) :
    ∃ u, Imaged y xv zv l s u ∧ placeBits y xv zv l s k = k u := by
  induction l generalizing s with
  | nil => exact ⟨s, ⟨.refl s, fun a b _ => by simp⟩, rfl⟩
  | cons i rest ih =>
    obtain ⟨hi, hrest⟩ := List.forall_mem_cons.mp hin
    obtain ⟨u, hu, e⟩ := ih (s := s.putWord (imageWord s.inst y (charOf xv i))
      (s.mem.read (imageWord s.inst y (charOf xv i)) ||| zv >>> i)) (Memory.wf_write hm _ _) hrest
    refine ⟨u, ⟨(StoreChange.putWord hi _).trans hu.change, fun a b hb => ?_⟩, ?_⟩
    · rw [hu.bits a b hb, State.putWord_mem, Memory.read_write hm, List.exists_mem_cons_iff]
      by_cases ha : a = imageWord s.inst y (charOf xv i)
      · subst ha
        rw [if_pos rfl, BitVec.getLsbD_or, BitVec.getLsbD_ushiftRight, Bool.or_eq_true, or_assoc,
          Nat.add_comm i b]
        simp
      · rw [if_neg ha]
        simp [Ne.symm ha]
    · rw [placeBits, readWord_of_lt hi, writeWord_of_lt hi, e]

/-- Settles O43: the eight bits are placed, and z is written after them. -/
theorem lineImage : Obligations.LineImage := by
  unfold Obligations.LineImage
  intro o s z xv zv hm hz hx hs hxv hzv hin
  obtain ⟨u, hu, he⟩ := placeBits_images (y := o.y.toNat) (xv := xv) (zv := zv)
    (l := List.range' 0 8) (k := fun s1 => writeWord s1 z.toNat (zv >>> 8) nextOrder) hm
    (fun i hi => hin i (by simpa using hi))
  have hnext : exec (.op140E o) s = .next (u.putWord z.toNat (zv >>> 8)).advance := by
    rw [exec140E_eq hz hx, readWord_of_lt hs, ← hxv, ← hzv, he,
      writeWord_of_lt (by rwa [hu.change.inst])]
    rfl
  refine ⟨_, hnext, ?_, Memory.read_write_self (hu.change.wf hm) _ _, fun a b ha hb => ?_⟩
  · rw [NextWithStore, State.advance, State.putWord, hu.change.frame]
  · rw [State.advance_mem, State.putWord_mem, Memory.read_write_of_ne (hu.change.wf hm) ha,
      hu.bits a b hb]
    simp [List.mem_range'_1, imageWord]

end Sys2Proof.Claims
end
